-- ==== Sys2Proof/Word.lean ====
section
/-! DEFINITION. The word types of the Stall_Indicator block and the names of its state codes
(spec/00_scope.md R6, R9, R10; spec/30_encoding.md R70, R76). -/

namespace Sys2Proof

/-- One register access is one 32-bit word (`WORD_W`, spec/20_memory.md R52); addresses are 32-bit byte addresses (R50). -/
abbrev Word := BitVec 32

/-- A byte lane of a word (spec/20_memory.md R54). -/
abbrev Byte := BitVec 8

/-- The 8-bit bus transaction descriptor (spec/30_encoding.md R70). -/
abbrev Descriptor := BitVec 8

/-- The 4-bit sequencer state code (spec/30_encoding.md R76). -/
abbrev StateCode := BitVec 4

/-- A converted magnitude, `MAG_W` = 12 bits, 0..4095 (spec/00_scope.md R6). -/
abbrev Magnitude := BitVec 12

/-- One bit per indicator, `NUM_IND` = 10 (spec/00_scope.md R6). -/
abbrev Pattern := BitVec 10

/-- An ADC channel number, `NUM_CHANNELS` = 2 (spec/00_scope.md R6). -/
abbrev Channel := Fin 2

/-- A bar-graph level 0..`MAX_LEVEL` = 10 (spec/00_scope.md R6). -/
abbrev Level := Fin 11

/-- The channel that one selector bit names (spec/41_adc_mux_ready.md R130). -/
def channelOfBit (b : Bool) : Channel := if b then 1 else 0

/-- Byte lane `k` of a word carries bits `8k+7:8k` (spec/20_memory.md R54). -/
def byteLane (w : Word) (k : Nat) : Byte := w.extractLsb' (8 * k) 8

/-- The word whose byte lanes 0 to 3 are `b0` to `b3` (spec/20_memory.md R54). -/
def wordOfLanes (b0 b1 b2 b3 : Byte) : Word := b3 ++ b2 ++ b1 ++ b0

/-- `INIT_DIR` (spec/30_encoding.md R76). -/
abbrev Code.initDir : StateCode := 0x0#4
/-- `INIT_ARM0` (spec/30_encoding.md R76). -/
abbrev Code.initArm0 : StateCode := 0x1#4
/-- `INIT_ARM1` (spec/30_encoding.md R76). -/
abbrev Code.initArm1 : StateCode := 0x2#4
/-- `POLL_SEL` (spec/30_encoding.md R76). -/
abbrev Code.pollSel : StateCode := 0x3#4
/-- `POLL_A` (spec/30_encoding.md R76). -/
abbrev Code.pollA : StateCode := 0x4#4
/-- `POLL_B` (spec/30_encoding.md R76). -/
abbrev Code.pollB : StateCode := 0x5#4
/-- `READY` (spec/30_encoding.md R76). -/
abbrev Code.ready : StateCode := 0x6#4
/-- `NOT_READY` (spec/30_encoding.md R76). -/
abbrev Code.notReady : StateCode := 0x7#4
/-- `CONVERT` (spec/30_encoding.md R76). -/
abbrev Code.convert : StateCode := 0x8#4
/-- `DECIDE` (spec/30_encoding.md R76). -/
abbrev Code.decide : StateCode := 0x9#4
/-- `ACTUATE` (spec/30_encoding.md R76). -/
abbrev Code.actuate : StateCode := 0xA#4
/-- `PACE` (spec/30_encoding.md R76). -/
abbrev Code.pace : StateCode := 0xB#4

end Sys2Proof
end

