-- ==== Sys2Proof/Syntax.lean ====
section
/-! DEFINITION. The operations of the block: one constructor of `Instr` for each mnemonic of
spec/opcode_table.json (the bus descriptors of spec/30_encoding.md R71 and the sequencer states of
R76), the moves of the environment agents (spec/00_scope.md R5), and a raw bus request. -/

namespace Sys2Proof

/-- The operations of spec/opcode_table.json. The fourteen `UNMAPPED` rows are one operation whose
descriptor is an operand, and so are the four `RESERVED_STATE` rows with their code. A bus write
carries its 32-bit data word (spec/30_encoding.md R70, R75). -/
inductive Instr where
  /-- `RD_ADC n`, descriptor `0x00 | n` (spec/40_bus_access.md R100). -/
  | rdAdc (n : Channel)
  /-- `WR_ADC0`, descriptor `0x80` (R101). -/
  | wrAdc0 (wdata : Word)
  /-- `WR_ADC1`, descriptor `0x81` (R102). -/
  | wrAdc1 (wdata : Word)
  /-- `RD_GPIO_DATA`, descriptor `0x20` (R103). -/
  | rdGpioData
  /-- `WR_GPIO_DATA`, descriptor `0xA0` (R104). -/
  | wrGpioData (wdata : Word)
  /-- `RD_GPIO_DIR`, descriptor `0x21`, a reserved read (R105). -/
  | rdGpioDir
  /-- `WR_GPIO_DIR`, descriptor `0xA1` (R106). -/
  | wrGpioDir (wdata : Word)
  /-- `RD_SWITCH`, descriptor `0x40` (R107). -/
  | rdSwitch
  /-- `WR_SWITCH`, descriptor `0xC0`, a reserved write (R108). -/
  | wrSwitch (wdata : Word)
  /-- `UNMAPPED`: a descriptor that reaches no register, and the write data if any (R109). -/
  | unmapped (d : Descriptor) (wdata : Word)
  /-- `INIT_DIR`, state code 0x0 (spec/44_sequencer.md R200). -/
  | initDir
  /-- `INIT_ARM0`, state code 0x1 (R201). -/
  | initArm0
  /-- `INIT_ARM1`, state code 0x2 (R202). -/
  | initArm1
  /-- `POLL_SEL`, state code 0x3 (R203). -/
  | pollSel
  /-- `POLL_A`, state code 0x4 (R204). -/
  | pollA
  /-- `POLL_B`, state code 0x5 (R205). -/
  | pollB
  /-- `READY`, state code 0x6 (R206). -/
  | ready
  /-- `NOT_READY`, state code 0x7 (R207). -/
  | notReady
  /-- `CONVERT`, state code 0x8 (R208). -/
  | convertState
  /-- `DECIDE`, state code 0x9 (R209). -/
  | decideState
  /-- `ACTUATE`, state code 0xA (R210). -/
  | actuate
  /-- `PACE`, state code 0xB (R211). -/
  | pace
  /-- `RESERVED_STATE`, state codes 0xC to 0xF (R215). -/
  | reservedState (code : StateCode)
deriving DecidableEq, Repr, Inhabited

/-- The mnemonics of spec/opcode_table.json, as names. -/
inductive Op where
  | RD_ADC | WR_ADC0 | WR_ADC1 | RD_GPIO_DATA | WR_GPIO_DATA | RD_GPIO_DIR | WR_GPIO_DIR | RD_SWITCH
  | WR_SWITCH | UNMAPPED | INIT_DIR | INIT_ARM0 | INIT_ARM1 | POLL_SEL | POLL_A | POLL_B | READY
  | NOT_READY | CONVERT | DECIDE | ACTUATE | PACE | RESERVED_STATE
deriving DecidableEq, Repr, Inhabited

/-- The row name of an operation. -/
def Instr.op : Instr → Op
  | .rdAdc _ => .RD_ADC
  | .wrAdc0 _ => .WR_ADC0
  | .wrAdc1 _ => .WR_ADC1
  | .rdGpioData => .RD_GPIO_DATA
  | .wrGpioData _ => .WR_GPIO_DATA
  | .rdGpioDir => .RD_GPIO_DIR
  | .wrGpioDir _ => .WR_GPIO_DIR
  | .rdSwitch => .RD_SWITCH
  | .wrSwitch _ => .WR_SWITCH
  | .unmapped _ _ => .UNMAPPED
  | .initDir => .INIT_DIR
  | .initArm0 => .INIT_ARM0
  | .initArm1 => .INIT_ARM1
  | .pollSel => .POLL_SEL
  | .pollA => .POLL_A
  | .pollB => .POLL_B
  | .ready => .READY
  | .notReady => .NOT_READY
  | .convertState => .CONVERT
  | .decideState => .DECIDE
  | .actuate => .ACTUATE
  | .pace => .PACE
  | .reservedState _ => .RESERVED_STATE

/-- The two encodings of spec/30_encoding.md: the bus transaction descriptor and the state code. -/
inductive Format where
  | bus
  | fsm
deriving DecidableEq, Repr, Inhabited

/-- Which of the two encodings an operation belongs to (the table's `format`). -/
def Instr.format : Instr → Format
  | .rdAdc _ => .bus
  | .wrAdc0 _ => .bus
  | .wrAdc1 _ => .bus
  | .rdGpioData => .bus
  | .wrGpioData _ => .bus
  | .rdGpioDir => .bus
  | .wrGpioDir _ => .bus
  | .rdSwitch => .bus
  | .wrSwitch _ => .bus
  | .unmapped _ _ => .bus
  | .initDir => .fsm
  | .initArm0 => .fsm
  | .initArm1 => .fsm
  | .pollSel => .fsm
  | .pollA => .fsm
  | .pollB => .fsm
  | .ready => .fsm
  | .notReady => .fsm
  | .convertState => .fsm
  | .decideState => .fsm
  | .actuate => .fsm
  | .pace => .fsm
  | .reservedState _ => .fsm

/-- One step of an agent (spec/00_scope.md R5): a step of `SEQ`, a step of `ADC`
(spec/41_adc_mux_ready.md R121, R122) or a step of `SWITCH` (spec/60_exceptions.md R240). -/
inductive AgentMove where
  /-- `SEQ` performs the action of its state code. -/
  | seq
  /-- `COMPLETE(n, v)`. -/
  | complete (n : Channel) (v : Magnitude)
  /-- `INVALIDATE(n)`. -/
  | invalidate (n : Channel)
  /-- `SET(b)`. -/
  | setSwitch (b : Bool)
deriving DecidableEq, Repr, Inhabited

/-- A raw request to the register space by address and size, the form in which a wrong size or a
misaligned address can be asked for (spec/20_memory.md R52, R53, R58). -/
structure BusRequest where
  /-- Write when true. -/
  we : Bool
  /-- The byte address. -/
  addr : Word
  /-- The size in bytes; only 4 is an access. -/
  size : Nat
  /-- The data word of a write. -/
  wdata : Word
deriving DecidableEq, Repr, Inhabited

end Sys2Proof
end

