-- ==== Sys2Proof/Config.lean ====
section
/-! DEFINITION. What an implementation fixes (the configuration record of spec/00_scope.md R6), the
constants the same table gives for this hardware, and the free values (`draw()`, R11). -/

namespace Sys2Proof

/-- `STRATEGY` (spec/00_scope.md R2). -/
inductive Strategy where
  /-- The stall indicator. -/
  | threshold
  /-- The bar graph. -/
  | bucket
deriving DecidableEq, Repr, Inhabited

namespace Config

/-- `TRIGGER_VALUE` of this hardware (spec/00_scope.md R6). -/
def triggerValue : Word := 0x00000001#32
/-- `VEL_CH` of this hardware (spec/00_scope.md R6). -/
def velCh : Channel := 0
/-- `ANG_CH` of this hardware (spec/00_scope.md R6). -/
def angCh : Channel := 1

end Config

/-- The parameters that spec/00_scope.md R6 leaves OPEN, and the three rows that the spec lets a build set
beside them: `TRIGGER_VALUE` (spec/93_implementation_defined.md), `VEL_CH` and `ANG_CH`
(spec/92_eei_decisions.md D11); log entry 13. The record is sampled at reset and fixed until the next
reset (R33, spec/70_reset_and_hazards.md R250). -/
structure Cfg where
  /-- `ADC_READY_MASK`: the bit where the ADC places its ready flag. -/
  adcReadyMask : Word
  /-- `READY_MASK`: the bit the sample-ready detector tests. -/
  readyMask : Word
  /-- `ADC_BASE`. -/
  adcBase : Word
  /-- `GPIO_BASE`. -/
  gpioBase : Word
  /-- `SWITCH_BASE`. -/
  switchBase : Word
  /-- `STRATEGY`. -/
  strategy : Strategy
  /-- `PACE_DELAY`: idle clock cycles per `PACE` in a realisation. -/
  paceDelay : Nat
  /-- `GPIO_DATA_RESET`: the latch after reset. -/
  gpioDataReset : Pattern
  /-- `TRIGGER_VALUE`: the word that `INIT` writes to each ADC channel. -/
  triggerValue : Word := Config.triggerValue
  /-- `VEL_CH`: the channel of the velocity under `THRESHOLD`. -/
  velCh : Channel := Config.velCh
  /-- `ANG_CH`: the channel of the angle under `THRESHOLD`. -/
  angCh : Channel := Config.angCh
deriving DecidableEq, Repr, Inhabited

namespace Config

/-! The rows of spec/00_scope.md R6 that have a value and are no parameter (log entry 13). -/

/-- `MAXVAL`. -/
def maxVal : Nat := 4095
/-- `MAG_MASK`. -/
def magMask : Word := 0x00000FFF#32
/-- `NUM_IND`. -/
def numInd : Nat := 10
/-- `IND_MASK`. -/
def indMask : Word := 0x000003FF#32
/-- `MAX_LEVEL`. -/
def maxLevel : Nat := 10
/-- `DIR_MASK`. -/
def dirMask : Word := 0x000003FF#32
/-- `ALL_ON`. -/
def allOn : Pattern := 0x3FF#10
/-- `V_FULL`, m/s at full scale. -/
def vFull : ℚ := 300
/-- `A_LO`, degrees at magnitude 0. -/
def aLo : ℚ := -30
/-- `A_HI`, degrees at magnitude `MAXVAL`. -/
def aHi : ℚ := 30
/-- `ALPHA_MAX`, degrees. -/
def alphaMax : ℚ := 15
/-- `WEIGHT`. -/
def weight : ℚ := 980000
/-- `RHO` = 1.225. -/
def rho : ℚ := 49 / 40
/-- `WING_AREA`. -/
def wingArea : ℚ := 125
/-- `CL_MAX` = 1.2. -/
def clMax : ℚ := 6 / 5

/-! The values the model leaves free (`draw()`, spec/00_scope.md R11): no body, so no proof sees one. -/

/-- The `k`-th word a register read draws (log entry 3). -/
opaque draw : Nat → Word

/-- Which agent moves at tick `k` when the outside world has asked for nothing (spec/20_memory.md R60;
log entry 1). -/
opaque schedule : Nat → AgentMove

/-- What the undriven indicator pins show at tick `k` (spec/43_gpio_driver.md R185; log entry 4). -/
opaque undrivenPins : Nat → Pattern

/-- DESIGN CHOICE (log entry 5): the configuration that `State.reset` samples. Every field it names is OPEN
in spec/00_scope.md R6, and the other three have R6's values; the statements quantify over every
configuration and never use these values. -/
def platform : Cfg where
  adcReadyMask := 0x00010000#32
  readyMask := 0x00010000#32
  adcBase := 0x00000000#32
  gpioBase := 0x00000010#32
  switchBase := 0x00000020#32
  strategy := .bucket
  paceDelay := 1
  gpioDataReset := 0x000#10

end Config

end Sys2Proof
end

