-- ==== Sys2Proof/Machine/State.lean ====
section
/-! DEFINITION. The state of the block (spec/10_state.md), as plain data, and its value after reset
(R34). The fields under "the model's own" stand for the outside world's choices. -/

namespace Sys2Proof.Machine

/-- `adc_mode` (spec/10_state.md R22). -/
inductive AdcMode where
  | off
  | single
  | cont
deriving DecidableEq, Repr, Inhabited

/-- One value for each of the two ADC channels (spec/10_state.md R22). -/
structure PerChannel (α : Type) where
  /-- Channel 0. -/
  ch0 : α
  /-- Channel 1. -/
  ch1 : α
deriving DecidableEq, Repr, Inhabited

/-- The value of channel `n`. -/
def PerChannel.get {α : Type} (v : PerChannel α) (n : Channel) : α := if n = 0 then v.ch0 else v.ch1

/-- The same values with channel `n`'s replaced. -/
def PerChannel.set {α : Type} (v : PerChannel α) (n : Channel) (x : α) : PerChannel α :=
  if n = 0 then { v with ch0 := x } else { v with ch1 := x }

/-- The names of the pipeline registers (spec/10_state.md R30), for the fault `UNWRITTEN`. -/
inductive PipeReg where
  | sel | ch | sa | sb | ma | mb | vel | ang | stall | level | pat
deriving DecidableEq, Repr, Inhabited

/-- The pipeline registers (spec/10_state.md R30); `none` is the spec's *unwritten* (⊥). -/
structure Pipeline where
  /-- `p.sel`, the selector bit. -/
  sel : Option (BitVec 1)
  /-- `p.ch`, the channel the selector chose. -/
  ch : Option Channel
  /-- `p.sa`, the first (or only) RawSample. -/
  sa : Option Word
  /-- `p.sb`, the second RawSample. -/
  sb : Option Word
  /-- `p.ma`. -/
  ma : Option Magnitude
  /-- `p.mb`. -/
  mb : Option Magnitude
  /-- `p.vel`, m/s. -/
  vel : Option ℚ
  /-- `p.ang`, degrees. -/
  ang : Option ℚ
  /-- `p.stall`. -/
  stall : Option Bool
  /-- `p.level`. -/
  level : Option Level
  /-- `p.pat`. -/
  pat : Option Pattern
deriving DecidableEq, Repr, Inhabited

/-- Every pipeline register unwritten (spec/44_sequencer.md R212). -/
def Pipeline.empty : Pipeline :=
  ⟨none, none, none, none, none, none, none, none, none, none, none⟩

/-- The reasons of the sticky fault record, each with its recorded value (spec/60_exceptions.md R231).
A raw request has no descriptor, and region 11 has no address. -/
inductive FaultReason where
  /-- `UNSUPPORTED_ACCESS`: a size other than 4 or a misaligned address (spec/20_memory.md R52, R53). -/
  | unsupportedAccess (d : Option Descriptor) (addr : Option Word) (size : Nat)
  /-- `UNMAPPED`: a descriptor or an address that reaches no register (R58). -/
  | unmapped (d : Option Descriptor) (addr : Option Word)
  /-- `BAD_STATE`: a reserved state code, or a poll state of the other strategy (spec/44_sequencer.md R215). -/
  | badState (fsm : StateCode)
  /-- `UNWRITTEN`: an unwritten pipeline register was read (spec/10_state.md R30). -/
  | unwritten (r : PipeReg)
deriving DecidableEq, Repr, Inhabited

/-- The registers of the register space (spec/20_memory.md R51). -/
inductive Reg where
  /-- `ADC_CHANNEL[n]`. -/
  | adcChannel (n : Channel)
  /-- `GPIO_DATA`. -/
  | gpioData
  /-- `GPIO_DIR`. -/
  | gpioDir
  /-- `SWITCH_INPUT`. -/
  | switchInput
deriving DecidableEq, Repr, Inhabited

/-- The kind of a bus event (spec/20_memory.md R56). -/
inductive AccessKind where
  | rd
  | wr
deriving DecidableEq, Repr, Inhabited

/-- A bus event `(seq_no, kind, register, value)` (spec/20_memory.md R56). -/
structure BusEvent where
  /-- `seq_no`. -/
  seqNo : Nat
  /-- `kind`. -/
  kind : AccessKind
  /-- `register`. -/
  reg : Reg
  /-- The word returned or written. -/
  value : Word
deriving DecidableEq, Repr, Inhabited

/-- The values that reset draws beside `GPIO_DATA_RESET` (spec/10_state.md R34). -/
structure ResetDraws where
  /-- `adc_mag[n]`. -/
  mag : PerChannel Magnitude
  /-- The level of the switch pin. -/
  sw : Bool
deriving DecidableEq, Repr, Inhabited

/-- What the outside world can have happen next. -/
inductive Move where
  /-- A step of one of the three agents (spec/00_scope.md R5). -/
  | agent (m : AgentMove)
  /-- A bus transaction put to the block directly, by descriptor (spec/95_test_vectors.md P5). -/
  | transfer (d : Descriptor) (wdata : Word)
  /-- A raw request put to the block directly, by address and size (spec/20_memory.md R52, R53, R58). -/
  | request (r : BusRequest)
  /-- `rst_n` low at a clock edge, with the configuration sampled and the values drawn then
  (spec/70_reset_and_hazards.md R250, R252). -/
  | reset (c : Cfg) (draws : ResetDraws)
deriving DecidableEq, Repr, Inhabited

/-- The machine's state. -/
structure State where
  /-- `fsm` (spec/10_state.md R21). -/
  fsm : StateCode
  /-- `adc_mode` (R22). -/
  adcMode : AdcMode
  /-- `adc_busy[n]` (R22). -/
  adcBusy : PerChannel Bool
  /-- `adc_rdy[n]` (R22, R23). -/
  adcRdy : PerChannel Bool
  /-- `adc_mag[n]` (R22). -/
  adcMag : PerChannel Magnitude
  /-- `gpio_data`, the indicator pattern latch (R25). -/
  gpioData : Pattern
  /-- `gpio_dir`, the direction register (R26). -/
  gpioDir : Pattern
  /-- `sw`, the switch pin (R29). -/
  sw : Bool
  /-- The pipeline registers (R30). -/
  p : Pipeline
  /-- The sticky fault record (R31). -/
  fault : Option FaultReason
  /-- `seq_no`, the number of the next bus event (spec/20_memory.md R56, spec/40_bus_access.md R110); that a
  run's first is 0 is log entry 24. -/
  seqNo : Nat
  /-- The bus event history, oldest first (spec/20_memory.md R56). -/
  events : List BusEvent
  /-- `CFG` as the `cfg` port was sampled at reset (spec/10_state.md R32, R33); no step but a reset writes it. -/
  cfg : Cfg
  /-- The model's own: the moves the outside world has asked for, next first (log entry 1). -/
  agenda : List Move
  /-- The model's own: the index into `Config.schedule` and `Config.undrivenPins` (log entries 1 and 4). -/
  tick : Nat
  /-- The model's own: the index into `Config.draw` (log entry 3). -/
  draws : Nat
deriving DecidableEq, Repr

/-- The state right after a reset that sampled `c` and drew `d` (spec/10_state.md R34). DESIGN CHOICE (log
entry 24): the first `seq_no` of a run, to which the spec gives no number, is 0. -/
def State.resetWith (c : Cfg) (d : ResetDraws) : State where
  fsm := Code.initDir
  adcMode := .off
  adcBusy := ⟨false, false⟩
  adcRdy := ⟨false, false⟩
  adcMag := d.mag
  gpioData := c.gpioDataReset
  gpioDir := 0x000#10
  sw := d.sw
  p := Pipeline.empty
  fault := none
  seqNo := 0
  events := []
  cfg := c
  agenda := []
  tick := 0
  draws := 0

/-- DESIGN CHOICE (log entry 6): the values `State.reset` has where spec/10_state.md R34 says "draw". -/
def ResetDraws.zero : ResetDraws := ⟨⟨0#12, 0#12⟩, false⟩

/-- The machine right after reset, under `Config.platform` and `ResetDraws.zero` (log entries 5 and 6). -/
def State.reset : State := State.resetWith Config.platform ResetDraws.zero

/-- Why a step has no next state. -/
inductive Fault where
  /-- Raised by every step of an agent and every access when the sticky fault record is not `none`: "Once
  `fault ≠ none`, no agent has a step" (spec/60_exceptions.md R232). Safe. -/
  | stopped (r : FaultReason)
deriving DecidableEq, Repr

/-- Why the model refuses to step. -/
inductive Refusal where
  /-- Raised by `exec` for an instruction that has no meaning yet. Safe. -/
  | notModelled (mnemonic : String)
  /-- Raised by `step` when the configuration, or the one a reset samples, breaks spec/00_scope.md R8 or
  spec/20_memory.md R51: "refused by the model before reset: no run exists for it". Safe. -/
  | configRefused (c : Cfg)
deriving DecidableEq, Repr

end Sys2Proof.Machine
end

