-- ==== Sys2Proof/Machine/Compare.lean ====
section
/-! DEFINITION. Physical conversion, the stall threshold comparator and the proportional-level encoder
(spec/42_compare_encode.md), in exact arithmetic (R152). -/

namespace Sys2Proof.Machine

/-- `ConvVel(m) = V_FULL · m / MAXVAL`, m/s (spec/42_compare_encode.md R150). -/
def convVel (m : Magnitude) : ℚ := Config.vFull * m.toNat / Config.maxVal

/-- `ConvAng(m) = A_LO + (A_HI − A_LO) · m / MAXVAL`, degrees (spec/42_compare_encode.md R151). -/
def convAng (m : Magnitude) : ℚ := Config.aLo + (Config.aHi - Config.aLo) * m.toNat / Config.maxVal

/-- `V_STALL_SQ`, the square of the stall speed (spec/42_compare_encode.md R153). -/
def vStallSq : ℚ := 2 * Config.weight / (Config.rho * Config.wingArea * Config.clMax)

/-- `v < V_STALL`, decided exactly on squares; a negative velocity, which no conversion gives, is below
any stall speed (spec/42_compare_encode.md R154). -/
def belowSpeed (speedSq v : ℚ) : Bool := decide (v < 0) || decide (v * v < speedSq)

/-- The comparator of spec/42_compare_encode.md R154 for any stall speed and angle limit (R156). -/
def stallCmpWith (speedSq angleMax v a : ℚ) : Bool := belowSpeed speedSq v || decide (angleMax < a)

/-- `StallCmp(v, a)` (spec/42_compare_encode.md R154). -/
def stallCmp (v a : ℚ) : Bool := stallCmpWith vStallSq Config.alphaMax v a

/-- The integer comparators that a realisation may use for the default configuration
(spec/42_compare_encode.md R155). -/
def stallThresholds (mv ma : Magnitude) : Bool := decide (mv.toNat ≤ 1409) || decide (3072 ≤ ma.toNat)

/-- `clamp(x, lo, hi)` (spec/00_scope.md R10). -/
def clamp (x lo hi : Nat) : Nat := min (max x lo) hi

/-- A number clamped to `0..MAX_LEVEL` (spec/42_compare_encode.md R161). -/
def clampLevel (x : Nat) : Level :=
  ⟨clamp x 0 Config.maxLevel, Nat.lt_succ_of_le (Nat.min_le_right _ _)⟩

/-- `LevelEnc(m)` (spec/42_compare_encode.md R160). -/
def levelEnc (m : Magnitude) : Level := clampLevel (Config.maxLevel * m.toNat / Config.maxVal)

end Sys2Proof.Machine
end

