-- ==== Sys2Proof/WellFormed.lean ====
section
/-! DEFINITION. Which terms of `Instr` the encodings of spec/30_encoding.md can carry. -/

namespace Sys2Proof

/-- The descriptors that reach a register (spec/30_encoding.md R71). -/
def mappedDescriptors : List Descriptor :=
  [0x00#8, 0x01#8, 0x80#8, 0x81#8, 0x20#8, 0xA0#8, 0x21#8, 0xA1#8, 0x40#8, 0xC0#8]

/-- An operation is well formed when its operands are ones its encoding has: an `UNMAPPED` descriptor
reaches no register, an `UNMAPPED` read carries no data word (spec/30_encoding.md R70, R71), and a
reserved state code is 0xC to 0xF (R77). -/
def Instr.wellFormed : Instr → Bool
  | .rdAdc _ => true
  | .wrAdc0 _ => true
  | .wrAdc1 _ => true
  | .rdGpioData => true
  | .wrGpioData _ => true
  | .rdGpioDir => true
  | .wrGpioDir _ => true
  | .rdSwitch => true
  | .wrSwitch _ => true
  | .unmapped d wdata => !mappedDescriptors.contains d && (d.getLsbD 7 || wdata == 0#32)
  | .initDir => true
  | .initArm0 => true
  | .initArm1 => true
  | .pollSel => true
  | .pollA => true
  | .pollB => true
  | .ready => true
  | .notReady => true
  | .convertState => true
  | .decideState => true
  | .actuate => true
  | .pace => true
  | .reservedState code => 0xC ≤ code.toNat

end Sys2Proof
end

