-- ==== Sys2Proof/Decode.lean ====
section
/-! DEFINITION. The two decoders of spec/30_encoding.md (R71, R76), both total, the byte form in which a
transaction is stored, the encoder, and the opcode table's rows. -/

namespace Sys2Proof

/-- Field `WE` of a descriptor: 1 = write (spec/30_encoding.md R70). -/
def descriptorWrites (d : Descriptor) : Bool := d.getLsbD 7

/-- Field `RGN` of a descriptor (spec/30_encoding.md R70). -/
def descriptorRegion (d : Descriptor) : BitVec 2 := d.extractLsb' 5 2

/-- Field `IDX` of a descriptor (spec/30_encoding.md R70). -/
def descriptorIndex (d : Descriptor) : BitVec 5 := d.extractLsb' 0 5

/-- The register access a descriptor names, with the data word that goes with a write
(spec/30_encoding.md R71). Total: every descriptor the table does not map is `UNMAPPED`. -/
def decodeTransfer (d : Descriptor) (wdata : Word) : Instr :=
  if d &&& 0xFE#8 = 0x00#8 then .rdAdc (channelOfBit (d.getLsbD 0))
  else if d = 0x80#8 then .wrAdc0 wdata
  else if d = 0x81#8 then .wrAdc1 wdata
  else if d = 0x20#8 then .rdGpioData
  else if d = 0xA0#8 then .wrGpioData wdata
  else if d = 0x21#8 then .rdGpioDir
  else if d = 0xA1#8 then .wrGpioDir wdata
  else if d = 0x40#8 then .rdSwitch
  else if d = 0xC0#8 then .wrSwitch wdata
  else .unmapped d (if descriptorWrites d then wdata else 0#32)

/-- The action a state code names (spec/30_encoding.md R76, R77). -/
def decodeState (c : StateCode) : Instr :=
  if c = Code.initDir then .initDir
  else if c = Code.initArm0 then .initArm0
  else if c = Code.initArm1 then .initArm1
  else if c = Code.pollSel then .pollSel
  else if c = Code.pollA then .pollA
  else if c = Code.pollB then .pollB
  else if c = Code.ready then .ready
  else if c = Code.notReady then .notReady
  else if c = Code.convert then .convertState
  else if c = Code.decide then .decideState
  else if c = Code.actuate then .actuate
  else if c = Code.pace then .pace
  else .reservedState c

/-- Why a list of bytes is no stored operation. -/
inductive DecodeError where
  /-- There is no byte. -/
  | noByte
  /-- A write descriptor is not followed by the four byte lanes of its data word. -/
  | noDataWord
  /-- A state code is four bits; this byte has a bit above them. -/
  | stateCodeTooWide
deriving DecidableEq, Repr

/-- Reads one stored operation and answers it with the bytes left over. A bus transaction is stored as
its descriptor, then for a write the data word's byte lanes 0 to 3 (spec/30_encoding.md R70,
spec/20_memory.md R54); a state code is stored in the low four bits of one byte (log entry 2). -/
def decode : Format → List Byte → Except DecodeError (Instr × List Byte)
  | .bus, [] => .error .noByte
  | .bus, d :: rest =>
    if descriptorWrites d then
      match rest with
      | b0 :: b1 :: b2 :: b3 :: rest' => .ok (decodeTransfer d (wordOfLanes b0 b1 b2 b3), rest')
      | _ => .error .noDataWord
    else .ok (decodeTransfer d 0#32, rest)
  | .fsm, [] => .error .noByte
  | .fsm, b :: rest =>
    if b.toNat < 16 then .ok (decodeState (b.setWidth 4), rest) else .error .stateCodeTooWide

/-- The four byte lanes of a word, lane 0 first (spec/20_memory.md R54). -/
def wordLanes (w : Word) : List Byte := [byteLane w 0, byteLane w 1, byteLane w 2, byteLane w 3]

/-- The descriptor of `RD_ADC n` (spec/40_bus_access.md R100). -/
def rdAdcDescriptor (n : Channel) : Descriptor := 0x00#8 ||| BitVec.ofNat 8 n.val

/-- The stored form of an operation, from the encodings of spec/30_encoding.md R71 and R76. -/
def encode : Instr → List Byte
  | .rdAdc n => [rdAdcDescriptor n]
  | .wrAdc0 w => 0x80#8 :: wordLanes w
  | .wrAdc1 w => 0x81#8 :: wordLanes w
  | .rdGpioData => [0x20#8]
  | .wrGpioData w => 0xA0#8 :: wordLanes w
  | .rdGpioDir => [0x21#8]
  | .wrGpioDir w => 0xA1#8 :: wordLanes w
  | .rdSwitch => [0x40#8]
  | .wrSwitch w => 0xC0#8 :: wordLanes w
  | .unmapped d w => if descriptorWrites d then d :: wordLanes w else [d]
  | .initDir => [0x00#8]
  | .initArm0 => [0x01#8]
  | .initArm1 => [0x02#8]
  | .pollSel => [0x03#8]
  | .pollA => [0x04#8]
  | .pollB => [0x05#8]
  | .ready => [0x06#8]
  | .notReady => [0x07#8]
  | .convertState => [0x08#8]
  | .decideState => [0x09#8]
  | .actuate => [0x0A#8]
  | .pace => [0x0B#8]
  | .reservedState c => [c.setWidth 8]

/-- One row of spec/opcode_table.json: `x` selects it when `x & mask = match`. -/
structure TableRow where
  /-- The row's `format`. -/
  format : Format
  /-- The row's `match`. -/
  pattern : BitVec 8
  /-- The row's `mask`. -/
  mask : BitVec 8
  /-- The row's `mnemonic`. -/
  op : Op
deriving DecidableEq, Repr

/-- Whether a descriptor or a state code selects a row (spec/30_encoding.md, the paragraph before R70). -/
def TableRow.selects (r : TableRow) (f : Format) (x : BitVec 8) : Bool :=
  r.format == f && x &&& r.mask == r.pattern

/-- The bus rows of spec/opcode_table.json. -/
def busRows : List TableRow :=
  [⟨.bus, 0x00#8, 0xFE#8, .RD_ADC⟩, ⟨.bus, 0x80#8, 0xFF#8, .WR_ADC0⟩, ⟨.bus, 0x81#8, 0xFF#8, .WR_ADC1⟩,
   ⟨.bus, 0x20#8, 0xFF#8, .RD_GPIO_DATA⟩, ⟨.bus, 0xA0#8, 0xFF#8, .WR_GPIO_DATA⟩,
   ⟨.bus, 0x21#8, 0xFF#8, .RD_GPIO_DIR⟩, ⟨.bus, 0xA1#8, 0xFF#8, .WR_GPIO_DIR⟩,
   ⟨.bus, 0x40#8, 0xFF#8, .RD_SWITCH⟩, ⟨.bus, 0xC0#8, 0xFF#8, .WR_SWITCH⟩] ++
  [⟨.bus, 0x02#8, 0x7E#8, .UNMAPPED⟩, ⟨.bus, 0x04#8, 0x7C#8, .UNMAPPED⟩, ⟨.bus, 0x08#8, 0x78#8, .UNMAPPED⟩,
   ⟨.bus, 0x10#8, 0x70#8, .UNMAPPED⟩, ⟨.bus, 0x22#8, 0x7E#8, .UNMAPPED⟩, ⟨.bus, 0x24#8, 0x7C#8, .UNMAPPED⟩,
   ⟨.bus, 0x28#8, 0x78#8, .UNMAPPED⟩, ⟨.bus, 0x30#8, 0x70#8, .UNMAPPED⟩, ⟨.bus, 0x41#8, 0x7F#8, .UNMAPPED⟩,
   ⟨.bus, 0x42#8, 0x7E#8, .UNMAPPED⟩, ⟨.bus, 0x44#8, 0x7C#8, .UNMAPPED⟩, ⟨.bus, 0x48#8, 0x78#8, .UNMAPPED⟩,
   ⟨.bus, 0x50#8, 0x70#8, .UNMAPPED⟩, ⟨.bus, 0x60#8, 0x60#8, .UNMAPPED⟩]

/-- The sequencer rows of spec/opcode_table.json. -/
def fsmRows : List TableRow :=
  [⟨.fsm, 0x0#8, 0xF#8, .INIT_DIR⟩, ⟨.fsm, 0x1#8, 0xF#8, .INIT_ARM0⟩, ⟨.fsm, 0x2#8, 0xF#8, .INIT_ARM1⟩,
   ⟨.fsm, 0x3#8, 0xF#8, .POLL_SEL⟩, ⟨.fsm, 0x4#8, 0xF#8, .POLL_A⟩, ⟨.fsm, 0x5#8, 0xF#8, .POLL_B⟩,
   ⟨.fsm, 0x6#8, 0xF#8, .READY⟩, ⟨.fsm, 0x7#8, 0xF#8, .NOT_READY⟩] ++
  [⟨.fsm, 0x8#8, 0xF#8, .CONVERT⟩, ⟨.fsm, 0x9#8, 0xF#8, .DECIDE⟩, ⟨.fsm, 0xA#8, 0xF#8, .ACTUATE⟩,
   ⟨.fsm, 0xB#8, 0xF#8, .PACE⟩, ⟨.fsm, 0xC#8, 0xF#8, .RESERVED_STATE⟩, ⟨.fsm, 0xD#8, 0xF#8, .RESERVED_STATE⟩,
   ⟨.fsm, 0xE#8, 0xF#8, .RESERVED_STATE⟩, ⟨.fsm, 0xF#8, 0xF#8, .RESERVED_STATE⟩]

/-- The rows that a descriptor or a state code selects. -/
def selectedRows (f : Format) (x : BitVec 8) : List TableRow :=
  (busRows ++ fsmRows).filter fun r => r.selects f x

/-- DESIGN CHOICE (log entry 2): the table numbers the bits of two encodings, and a number of up to
eight bits does not say which one it is in. A number below 16 is read as a state code (what the block
fetches), any other as a bus transaction. -/
def tableFormat (nbits w : Nat) : Format :=
  if nbits ≤ 4 then .fsm else if nbits ≤ 8 && w % 2 ^ nbits < 16 then .fsm else .bus

/-- The bytes of a table word: byte 0 holds bits 7:0, and every bit from `nbits` up is 0. -/
def tableBytes (nbits w : Nat) : List Byte :=
  let v := w % 2 ^ nbits
  [BitVec.ofNat 8 v, BitVec.ofNat 8 (v / 2 ^ 8), BitVec.ofNat 8 (v / 2 ^ 16), BitVec.ofNat 8 (v / 2 ^ 24),
   BitVec.ofNat 8 (v / 2 ^ 32)]

/-- The operation the decoder reads from a table word. -/
def decodeTableWord (nbits w : Nat) : Option Instr :=
  match decode (tableFormat nbits w) (tableBytes nbits w) with
  | .ok (i, _) => some i
  | .error _ => none

end Sys2Proof
end

