-- ==== Sys2Proof/Machine/Operands.lean ====
section
/-! DEFINITION. The operand forms: addresses of the register space (spec/20_memory.md R51,
spec/30_encoding.md R70), the fields of the data words (R74, R75) and the multiplexer
(spec/41_adc_mux_ready.md R130, R132). -/

namespace Sys2Proof.Machine

/-- `base(RGN)`; region 11 has none (spec/30_encoding.md R70). -/
def regionBase (c : Cfg) (rgn : BitVec 2) : Option Word :=
  if rgn = 0#2 then some c.adcBase
  else if rgn = 1#2 then some c.gpioBase
  else if rgn = 2#2 then some c.switchBase
  else none

/-- The address a descriptor reaches, `base(RGN) + 4·IDX` (spec/30_encoding.md R70). DESIGN CHOICE (log entry
25): a sum above 0xFFFFFFFF, which only an unmapped descriptor can have, is taken modulo 2^32. -/
def descriptorAddr (c : Cfg) (d : Descriptor) : Option Word :=
  (regionBase c (descriptorRegion d)).map fun base => base + 4#32 * (descriptorIndex d).setWidth 32

/-- The address map (spec/20_memory.md R51). No sum wraps under a valid configuration. -/
def registerAddr (c : Cfg) : Reg → Word
  | .adcChannel n => c.adcBase + 4#32 * BitVec.ofNat 32 n.val
  | .gpioData => c.gpioBase
  | .gpioDir => c.gpioBase + 4#32
  | .switchInput => c.switchBase

/-- Every register of the map. -/
def allRegs : List Reg := [.adcChannel 0, .adcChannel 1, .gpioData, .gpioDir, .switchInput]

/-- The register at an address, if the map lists one there (spec/20_memory.md R51, R58). -/
def registerAt (c : Cfg) (addr : Word) : Option Reg := allRegs.find? fun r => registerAddr c r == addr

/-- `Mag(w)`: the magnitude field `w & MAG_MASK`, that is `w[11:0]` (spec/41_adc_mux_ready.md R132). -/
def mag (w : Word) : Magnitude := (w &&& Config.magMask).setWidth 12

/-- The selector bit of a switch word, `w[0]` (spec/10_state.md R27). -/
def selectorBit (w : Word) : BitVec 1 := w.setWidth 1

/-- `MuxSel(w)`: the channel that switch word `w` selects (spec/41_adc_mux_ready.md R130). -/
def muxSel (w : Word) : Channel := channelOfBit (w.getLsbD 0)

/-- The indicator bits `w[9:0]` of a `GPIO` data word (spec/30_encoding.md R75). -/
def indicatorBits (w : Word) : Pattern := w.setWidth 10

/-- `zext_32` of a pattern: zeros in bits 31:10 (spec/43_gpio_driver.md R183). -/
def patternWord (x : Pattern) : Word := x.setWidth 32

end Sys2Proof.Machine
end

