-- ==== Sys2Proof/Machine/Flags.lean ====
section
/-! DEFINITION. The conversion-ready flag, the block's only status flag (spec/10_state.md R23): how a read
shows it and how the sample-ready detector tests it. -/

namespace Sys2Proof.Machine

/-- `ReadyOk(w)`: the detector tests `READY_MASK` (spec/41_adc_mux_ready.md R131). -/
def readyOk (c : Cfg) (w : Word) : Bool := w &&& c.readyMask != 0#32

/-- `READY`: the flag bit a read shows, at the bit of `ADC_READY_MASK` (spec/40_bus_access.md R100). -/
def readyField (c : Cfg) (rdy : Bool) : Word := if rdy then c.adcReadyMask else 0#32

/-- `ok` of spec/44_sequencer.md R217: the flag of every word the iteration read. -/
def bothReady (c : Cfg) (wa wb : Word) : Bool := readyOk c wa && readyOk c wb

end Sys2Proof.Machine
end

