-- ==== Sys2Proof/Machine/Pattern.lean ====
section
/-! DEFINITION. Indicator pattern synthesis and the output driver (spec/43_gpio_driver.md). -/

namespace Sys2Proof.Machine

/-- `BarPattern(k) = (1 << k) − 1` (spec/43_gpio_driver.md R180). -/
def barPattern (k : Level) : Pattern := BitVec.ofNat 10 ((1 <<< k.val) - 1)

/-- `StallPattern(b)` (spec/43_gpio_driver.md R181). -/
def stallPattern (b : Bool) : Pattern := if b then Config.allOn else 0x000#10

/-- `led_oe[9:0]`, the output enables (spec/43_gpio_driver.md R185). -/
def ledOe (s : State) : Pattern := s.gpioDir

/-- `led_out[i]`: the drive level of indicator `i`, or `none` for `Z` (spec/43_gpio_driver.md R185). -/
def ledOut (s : State) (i : Fin 10) : Option Bool :=
  if s.gpioDir.getLsbD i.val then some (s.gpioData.getLsbD i.val) else none

/-- `lit[i]`: what an observer may see of indicator `i`; a draw where it is not driven
(spec/43_gpio_driver.md R185). -/
def lit (s : State) (i : Fin 10) : Bool :=
  (ledOut s i).getD ((Config.undrivenPins s.tick).getLsbD i.val)

end Sys2Proof.Machine
end

