-- ==== Sys2Proof/Machine/Ops.lean ====
section
/-! DEFINITION. The shared operations: raising a model fault, running an action, the register accesses
with their common prologue (spec/40_bus_access.md R110), the commands of the ADC
(spec/41_adc_mux_ready.md), and the start of an iteration (spec/44_sequencer.md R212). -/

namespace Sys2Proof.Machine

/-! ## Faults -/

/-- `raise Fault(r)`: keeps the first reason (spec/60_exceptions.md R232). -/
def raise (r : FaultReason) (s : State) : State := { s with fault := some (s.fault.getD r) }

/-- One atomic step that performs `act`. Where a fault is recorded there is no step; where `act` raises
one, the fault record is all that changes (spec/60_exceptions.md R232, R235; spec/44_sequencer.md R215).
An action that raises one after it has done something answers what it has done, with the fault raised
(`.ok (raise r t)`; log entry 18). -/
def runAction (act : State → Except FaultReason State) (s : State) : Host.Outcome State Fault Refusal :=
  match s.fault with
  | some r => .fault (.stopped r)
  | none =>
    match act s with
    | .ok t => .next t
    | .error r => .next (raise r s)

/-- Reads a pipeline register; an unwritten one raises `UNWRITTEN` (spec/10_state.md R30). -/
def readPipe {α : Type} (name : PipeReg) (r : Option α) : Except FaultReason α :=
  match r with
  | some v => .ok v
  | none => .error (.unwritten name)

/-! ## Configuration -/

/-- A ready mask has exactly one bit set, outside `MAG_MASK` (spec/00_scope.md R8). -/
def readyMaskValid (m : Word) : Bool := (List.range' 12 20).any fun k => m == BitVec.twoPow 32 k

/-- The window `[base, base + size)` lies in the address space and starts at a multiple of 4
(spec/20_memory.md R50, R51). -/
def windowValid (base : Word) (size : Nat) : Bool :=
  base.toNat % 4 == 0 && decide (base.toNat + size ≤ 2 ^ 32)

/-- Two windows have no address in common (spec/20_memory.md R51). -/
def windowsDisjoint (a : Word) (sizeA : Nat) (b : Word) (sizeB : Nat) : Bool :=
  decide (a.toNat + sizeA ≤ b.toNat) || decide (b.toNat + sizeB ≤ a.toNat)

/-- Whether a configuration is one for which runs exist (spec/00_scope.md R6, R8; spec/20_memory.md R51;
log entry 7). -/
def cfgValid (c : Cfg) : Bool :=
  readyMaskValid c.adcReadyMask && readyMaskValid c.readyMask &&
  windowValid c.adcBase 8 && windowValid c.gpioBase 8 && windowValid c.switchBase 4 &&
  windowsDisjoint c.adcBase 8 c.gpioBase 8 && windowsDisjoint c.adcBase 8 c.switchBase 4 &&
  windowsDisjoint c.gpioBase 8 c.switchBase 4 && decide (1 ≤ c.paceDelay) &&
  c.triggerValue != 0#32 && c.velCh != c.angCh

/-! ## The registers, one read and one write each -/

/-- The RawSample of a channel, from its flag, its magnitude and a drawn word (spec/40_bus_access.md R100). -/
def sampleWord (c : Cfg) (rdy : Bool) (m : Magnitude) (drawn : Word) : Word :=
  (drawn &&& ~~~(c.adcReadyMask ||| Config.magMask)) ||| readyField c rdy |||
    (if rdy then m.setWidth 32 else drawn &&& Config.magMask)

/-- What a read of `GPIO_DATA` returns (spec/40_bus_access.md R103). -/
def gpioDataWord (data dir : Pattern) (drawn : Word) : Word :=
  (drawn &&& ~~~(dir.setWidth 32)) ||| (data &&& dir).setWidth 32

/-- What a read of `SWITCH_INPUT` returns (spec/40_bus_access.md R107). -/
def switchWord (sw : Bool) (drawn : Word) : Word :=
  (drawn &&& ~~~1#32) ||| (if sw then 1#32 else 0#32)

/-- The word a read of a register returns when it draws `drawn` (spec/40_bus_access.md R100, R103, R105, R107). -/
def regValue (s : State) (reg : Reg) (drawn : Word) : Word :=
  match reg with
  | .adcChannel n => sampleWord s.cfg (s.adcRdy.get n) (s.adcMag.get n) drawn
  | .gpioData => gpioDataWord s.gpioData s.gpioDir drawn
  | .gpioDir => drawn
  | .switchInput => switchWord s.sw drawn

/-- `AdcTriggerSingle()` (spec/41_adc_mux_ready.md R123). -/
def adcTriggerSingle (s : State) : State :=
  { s with
    adcBusy := ⟨true, true⟩
    adcMode := match s.adcMode with
      | .cont => .cont
      | .off => .single
      | .single => .single }

/-- `AdcEnableContinuous()` (spec/41_adc_mux_ready.md R125). -/
def adcEnableContinuous (s : State) : State := { s with adcMode := .cont, adcBusy := ⟨true, true⟩ }

/-- `LatchWrite(x)` (spec/43_gpio_driver.md R184). -/
def latchWrite (x : Pattern) (s : State) : State := { s with gpioData := x }

/-- The effect of a write on the device behind a register (spec/40_bus_access.md R101, R102, R104, R106, R108). -/
def regWrite (reg : Reg) (w : Word) (s : State) : State :=
  match reg with
  | .adcChannel n =>
    if w = 0#32 then s else if n = 0 then adcTriggerSingle s else adcEnableContinuous s
  | .gpioData => latchWrite (indicatorBits w) s
  | .gpioDir => { s with gpioDir := indicatorBits w }
  | .switchInput => s

/-! ## The access prologue (spec/40_bus_access.md R110) -/

/-- What the prologue looks at: the descriptor (a raw request has none), the address (region 11 has
none) and the size in bytes. -/
structure Access where
  /-- The descriptor. -/
  descriptor : Option Descriptor
  /-- The byte address. -/
  addr : Option Word
  /-- The size in bytes. -/
  size : Nat
deriving DecidableEq, Repr

/-- The access a descriptor names: one 32-bit word (spec/30_encoding.md R70). -/
def descriptorAccess (c : Cfg) (d : Descriptor) : Access := ⟨some d, descriptorAddr c d, 4⟩

/-- Whether the prologue rejects an access: a size other than 4 or an address that is not a multiple of 4
(spec/20_memory.md R52, R53). -/
def Access.unsupported (a : Access) : Bool :=
  a.size != 4 || (match a.addr with
    | some x => x.toNat % 4 != 0
    | none => false)

/-- Appends an event with the next sequence number (spec/20_memory.md R56, spec/40_bus_access.md R110). -/
def record (kind : AccessKind) (reg : Reg) (v : Word) (s : State) : State :=
  { s with events := s.events ++ [⟨s.seqNo, kind, reg, v⟩], seqNo := s.seqNo + 1 }

/-- `BusRead` of a register: the word it returns and the state with the event recorded
(spec/40_bus_access.md R110). -/
def performRead (a : Access) (reg : Reg) (s : State) : Except FaultReason (Word × State) :=
  if a.unsupported then .error (.unsupportedAccess a.descriptor a.addr a.size)
  else
    let w := regValue s reg (Config.draw s.draws)
    .ok (w, record .rd reg w { s with draws := s.draws + 1 })

/-- `BusWrite` of a register (spec/40_bus_access.md R110). -/
def performWrite (a : Access) (reg : Reg) (w : Word) (s : State) : Except FaultReason State :=
  if a.unsupported then .error (.unsupportedAccess a.descriptor a.addr a.size)
  else .ok (record .wr reg w (regWrite reg w s))

/-- `Access(d)` for a descriptor that reads a register. -/
def busRead (d : Descriptor) (reg : Reg) (s : State) : Except FaultReason (Word × State) :=
  performRead (descriptorAccess s.cfg d) reg s

/-- `Access(d, wdata)` for a descriptor that writes a register. -/
def busWrite (d : Descriptor) (reg : Reg) (w : Word) (s : State) : Except FaultReason State :=
  performWrite (descriptorAccess s.cfg d) reg w s

/-- `Access(d)` for its effect alone: the word read is in the event (spec/20_memory.md R56). -/
def busReadOnly (d : Descriptor) (reg : Reg) (s : State) : Except FaultReason State :=
  match busRead d reg s with
  | .ok (_, t) => .ok t
  | .error r => .error r

/-- An access that reaches no register: the prologue, then `UNMAPPED` (spec/40_bus_access.md R109, R110;
spec/60_exceptions.md R234). -/
def unmappedAccess (a : Access) : FaultReason :=
  if a.unsupported then .unsupportedAccess a.descriptor a.addr a.size else .unmapped a.descriptor a.addr

/-- A raw request to the register space (spec/20_memory.md R52, R53, R58; spec/40_bus_access.md R110). -/
def rawRequest (r : BusRequest) (s : State) : Except FaultReason State :=
  let a : Access := ⟨none, some r.addr, r.size⟩
  match registerAt s.cfg r.addr with
  | none => .error (unmappedAccess a)
  | some reg =>
    if r.we then performWrite a reg r.wdata s
    else
      match performRead a reg s with
      | .ok (_, t) => .ok t
      | .error e => .error e

/-! ## The sequencer -/

/-- `fsm <- c`. -/
def goto (c : StateCode) (s : State) : State := { s with fsm := c }

/-- `p.pat <- x` (spec/44_sequencer.md R210). -/
def setPat (x : Pattern) (s : State) : State := { s with p := { s.p with pat := some x } }

/-- The first poll state of an iteration (spec/44_sequencer.md R212). -/
def firstPoll : Strategy → StateCode
  | .bucket => Code.pollSel
  | .threshold => Code.pollA

/-- `StartIteration()` (spec/44_sequencer.md R212). -/
def startIteration (s : State) : State := { s with p := Pipeline.empty, fsm := firstPoll s.cfg.strategy }

/-- Where a readiness test leads (spec/44_sequencer.md R204, R205). -/
def branchReady (ok : Bool) : StateCode := if ok then Code.ready else Code.notReady

/-! ## The environment agents -/

/-- The effect of `COMPLETE(n, v)` (spec/41_adc_mux_ready.md R121). -/
def adcComplete (n : Channel) (v : Magnitude) (s : State) : State :=
  { s with
    adcMag := s.adcMag.set n v
    adcRdy := s.adcRdy.set n true
    adcBusy := s.adcBusy.set n (decide (s.adcMode = .cont)) }

/-- The effect of `INVALIDATE(n)` (spec/41_adc_mux_ready.md R122). -/
def adcInvalidate (n : Channel) (s : State) : State := { s with adcRdy := s.adcRdy.set n false }

/-- Whether the `ADC` agent has a step for channel `n` (spec/41_adc_mux_ready.md R121, R122). -/
def adcEnabled (n : Channel) (s : State) : Bool := s.fault.isNone && s.adcBusy.get n

/-- A `COMPLETE(n, v)` that is offered: taken when it is enabled, else nothing happens (log entry 1). -/
def offerComplete (n : Channel) (v : Magnitude) (s : State) : Except FaultReason State :=
  .ok (if adcEnabled n s then adcComplete n v s else s)

/-- An `INVALIDATE(n)` that is offered: taken when it is enabled, else nothing happens (log entry 1). -/
def offerInvalidate (n : Channel) (s : State) : Except FaultReason State :=
  .ok (if adcEnabled n s then adcInvalidate n s else s)

/-- `SET(b)` (spec/60_exceptions.md R240). -/
def setSwitch (b : Bool) (s : State) : Except FaultReason State := .ok { s with sw := b }

end Sys2Proof.Machine
end

