-- ==== Sys2Proof/Machine/Bus.lean ====
section
/-! DEFINITION. The register-access operations (spec/40_bus_access.md R100 to R109). -/

namespace Sys2Proof.Machine

/-- `RD_ADC n` (spec/40_bus_access.md R100). -/
def execRdAdc (n : Channel) (s : State) : Host.Outcome State Fault Refusal :=
  runAction (busReadOnly (rdAdcDescriptor n) (.adcChannel n)) s

/-- `WR_ADC0` (spec/40_bus_access.md R101). -/
def execWrAdc0 (w : Word) (s : State) : Host.Outcome State Fault Refusal :=
  runAction (busWrite 0x80#8 (.adcChannel 0) w) s

/-- `WR_ADC1` (spec/40_bus_access.md R102). -/
def execWrAdc1 (w : Word) (s : State) : Host.Outcome State Fault Refusal :=
  runAction (busWrite 0x81#8 (.adcChannel 1) w) s

/-- `RD_GPIO_DATA` (spec/40_bus_access.md R103). -/
def execRdGpioData (s : State) : Host.Outcome State Fault Refusal :=
  runAction (busReadOnly 0x20#8 .gpioData) s

/-- `WR_GPIO_DATA` (spec/40_bus_access.md R104). -/
def execWrGpioData (w : Word) (s : State) : Host.Outcome State Fault Refusal :=
  runAction (busWrite 0xA0#8 .gpioData w) s

/-- `RD_GPIO_DIR` (spec/40_bus_access.md R105). -/
def execRdGpioDir (s : State) : Host.Outcome State Fault Refusal :=
  runAction (busReadOnly 0x21#8 .gpioDir) s

/-- `WR_GPIO_DIR` (spec/40_bus_access.md R106). -/
def execWrGpioDir (w : Word) (s : State) : Host.Outcome State Fault Refusal :=
  runAction (busWrite 0xA1#8 .gpioDir w) s

/-- `RD_SWITCH` (spec/40_bus_access.md R107). -/
def execRdSwitch (s : State) : Host.Outcome State Fault Refusal :=
  runAction (busReadOnly 0x40#8 .switchInput) s

/-- `WR_SWITCH` (spec/40_bus_access.md R108). -/
def execWrSwitch (w : Word) (s : State) : Host.Outcome State Fault Refusal :=
  runAction (busWrite 0xC0#8 .switchInput w) s

/-- The action of `UNMAPPED` (spec/40_bus_access.md R109). -/
def actUnmapped (d : Descriptor) (s : State) : Except FaultReason State :=
  .error (unmappedAccess (descriptorAccess s.cfg d))

/-- `UNMAPPED` raises its fault whatever the data word is. -/
def execUnmapped (d : Descriptor) (_w : Word) (s : State) : Host.Outcome State Fault Refusal :=
  runAction (actUnmapped d) s

end Sys2Proof.Machine
end

