-- ==== Sys2Proof/Machine/Sequencer.lean ====
section
/-! DEFINITION. The actions of the sequencer's state codes (spec/44_sequencer.md R200 to R211, R215). -/

namespace Sys2Proof.Machine

/-- The action of `INIT_DIR` (spec/44_sequencer.md R200). -/
def actInitDir (s : State) : Except FaultReason State :=
  match busWrite 0xA1#8 .gpioDir Config.dirMask s with
  | .ok t => .ok (goto Code.initArm0 t)
  | .error r => .error r

/-- `INIT_DIR`. -/
def execInitDir (s : State) : Host.Outcome State Fault Refusal := runAction actInitDir s

/-- The action of `INIT_ARM0` (spec/44_sequencer.md R201). -/
def actInitArm0 (s : State) : Except FaultReason State :=
  match busWrite 0x80#8 (.adcChannel 0) s.cfg.triggerValue s with
  | .ok t => .ok (goto Code.initArm1 t)
  | .error r => .error r

/-- `INIT_ARM0`. -/
def execInitArm0 (s : State) : Host.Outcome State Fault Refusal := runAction actInitArm0 s

/-- The action of `INIT_ARM1` (spec/44_sequencer.md R202). -/
def actInitArm1 (s : State) : Except FaultReason State :=
  match busWrite 0x81#8 (.adcChannel 1) s.cfg.triggerValue s with
  | .ok t => .ok (startIteration t)
  | .error r => .error r

/-- `INIT_ARM1`. -/
def execInitArm1 (s : State) : Host.Outcome State Fault Refusal := runAction actInitArm1 s

/-- The action of `POLL_SEL` (spec/44_sequencer.md R203). -/
def actPollSel (s : State) : Except FaultReason State :=
  match s.cfg.strategy with
  | .threshold => .error (.badState s.fsm)
  | .bucket =>
    match busRead 0x40#8 .switchInput s with
    | .ok (w, t) =>
      .ok (goto Code.pollA { t with p := { t.p with sel := some (selectorBit w), ch := some (muxSel w) } })
    | .error r => .error r

/-- `POLL_SEL`. -/
def execPollSel (s : State) : Host.Outcome State Fault Refusal := runAction actPollSel s

/-- The channel `POLL_A` reads: `p.ch` under `BUCKET`, `VEL_CH` under `THRESHOLD` (spec/44_sequencer.md R204;
`VEL_CH` is a parameter, log entry 13). -/
def pollAChannel (s : State) : Except FaultReason Channel :=
  match s.cfg.strategy with
  | .bucket => readPipe .ch s.p.ch
  | .threshold => .ok s.cfg.velCh

/-- The action of `POLL_A` (spec/44_sequencer.md R204). -/
def actPollA (s : State) : Except FaultReason State :=
  match pollAChannel s with
  | .error r => .error r
  | .ok n =>
    match busRead (rdAdcDescriptor n) (.adcChannel n) s with
    | .error r => .error r
    | .ok (w, t) =>
      let u := { t with p := { t.p with sa := some w } }
      match s.cfg.strategy with
      | .bucket => .ok (goto (branchReady (readyOk s.cfg w)) u)
      | .threshold => .ok (goto Code.pollB u)

/-- `POLL_A`. -/
def execPollA (s : State) : Host.Outcome State Fault Refusal := runAction actPollA s

/-- The action of `POLL_B` (spec/44_sequencer.md R205). The access comes first: where `p.sa` is unwritten its
event and `p.sb` stand when the fault is raised (log entry 18). -/
def actPollB (s : State) : Except FaultReason State :=
  match s.cfg.strategy with
  | .bucket => .error (.badState s.fsm)
  | .threshold =>
    match busRead (rdAdcDescriptor s.cfg.angCh) (.adcChannel s.cfg.angCh) s with
    | .error r => .error r
    | .ok (wb, t) =>
      let u := { t with p := { t.p with sb := some wb } }
      match readPipe .sa u.p.sa with
      | .error r => .ok (raise r u)
      | .ok wa => .ok (goto (branchReady (bothReady s.cfg wa wb)) u)

/-- `POLL_B`. -/
def execPollB (s : State) : Host.Outcome State Fault Refusal := runAction actPollB s

/-- The action of `READY` (spec/44_sequencer.md R206). -/
def actReady (s : State) : Except FaultReason State := .ok (goto Code.convert s)

/-- `READY`. -/
def execReady (s : State) : Host.Outcome State Fault Refusal := runAction actReady s

/-- The action of `NOT_READY` (spec/44_sequencer.md R207). -/
def actNotReady (s : State) : Except FaultReason State := .ok (goto Code.pace s)

/-- `NOT_READY`. -/
def execNotReady (s : State) : Host.Outcome State Fault Refusal := runAction actNotReady s

/-- The action of `CONVERT` (spec/44_sequencer.md R208). `p.ma` is written before `p.sb` is read: where `p.sb`
is unwritten `p.ma` stands when the fault is raised (log entry 18). -/
def actConvert (s : State) : Except FaultReason State :=
  match readPipe .sa s.p.sa with
  | .error r => .error r
  | .ok wa =>
    let t := { s with p := { s.p with ma := some (mag wa) } }
    match s.cfg.strategy with
    | .bucket => .ok (goto Code.decide t)
    | .threshold =>
      match readPipe .sb t.p.sb with
      | .error r => .ok (raise r t)
      | .ok wb =>
        .ok (goto Code.decide
          { t with p := { t.p with
              mb := some (mag wb)
              vel := some (convVel (mag wa))
              ang := some (convAng (mag wb)) } })

/-- `CONVERT`. -/
def execConvert (s : State) : Host.Outcome State Fault Refusal := runAction actConvert s

/-- The action of `DECIDE` (spec/44_sequencer.md R209). `p.vel` is read before `p.ang` (log entry 18). -/
def actDecide (s : State) : Except FaultReason State :=
  match s.cfg.strategy with
  | .bucket =>
    match readPipe .ma s.p.ma with
    | .error r => .error r
    | .ok m => .ok (goto Code.actuate { s with p := { s.p with level := some (levelEnc m) } })
  | .threshold =>
    match readPipe .vel s.p.vel with
    | .error r => .error r
    | .ok v =>
      match readPipe .ang s.p.ang with
      | .error r => .error r
      | .ok a => .ok (goto Code.actuate { s with p := { s.p with stall := some (stallCmp v a) } })

/-- `DECIDE`. -/
def execDecide (s : State) : Host.Outcome State Fault Refusal := runAction actDecide s

/-- The pattern `ACTUATE` synthesises from the decision (spec/44_sequencer.md R210). -/
def decisionPattern (s : State) : Except FaultReason Pattern :=
  match s.cfg.strategy with
  | .bucket =>
    match readPipe .level s.p.level with
    | .error r => .error r
    | .ok k => .ok (barPattern k)
  | .threshold =>
    match readPipe .stall s.p.stall with
    | .error r => .error r
    | .ok b => .ok (stallPattern b)

/-- The action of `ACTUATE` (spec/44_sequencer.md R210). `p.pat` is written before the access: where the
access is unsupported, which no valid configuration allows, `p.pat` stands when the fault is raised (log entry
18). -/
def actActuate (s : State) : Except FaultReason State :=
  match decisionPattern s with
  | .error r => .error r
  | .ok x =>
    match busWrite 0xA0#8 .gpioData (patternWord x) (setPat x s) with
    | .error r => .ok (raise r (setPat x s))
    | .ok t => .ok (goto Code.pace t)

/-- `ACTUATE`. -/
def execActuate (s : State) : Host.Outcome State Fault Refusal := runAction actActuate s

/-- The action of `PACE` (spec/44_sequencer.md R211). -/
def actPace (s : State) : Except FaultReason State := .ok (startIteration s)

/-- `PACE`. -/
def execPace (s : State) : Host.Outcome State Fault Refusal := runAction actPace s

/-- The action of a reserved state code: the fault records `fsm` (spec/44_sequencer.md R215,
spec/60_exceptions.md R231). -/
def actReservedState (s : State) : Except FaultReason State := .error (.badState s.fsm)

/-- `RESERVED_STATE`; the operand is the code that names it, which `SEQ`'s step takes from `fsm`. -/
def execReservedState (_code : StateCode) (s : State) : Host.Outcome State Fault Refusal :=
  runAction actReservedState s

end Sys2Proof.Machine
end

