-- ==== Sys2Proof/Machine/Dispatch.lean ====
section
/-! DEFINITION. One arm for each operation of spec/opcode_table.json. -/

namespace Sys2Proof.Machine

def exec (i : Instr) (s : State) : Host.Outcome State Fault Refusal :=
  match i with
  | .rdAdc n => Sys2Proof.Machine.execRdAdc n s
  | .wrAdc0 wdata => Sys2Proof.Machine.execWrAdc0 wdata s
  | .wrAdc1 wdata => Sys2Proof.Machine.execWrAdc1 wdata s
  | .rdGpioData => Sys2Proof.Machine.execRdGpioData s
  | .wrGpioData wdata => Sys2Proof.Machine.execWrGpioData wdata s
  | .rdGpioDir => Sys2Proof.Machine.execRdGpioDir s
  | .wrGpioDir wdata => Sys2Proof.Machine.execWrGpioDir wdata s
  | .rdSwitch => Sys2Proof.Machine.execRdSwitch s
  | .wrSwitch wdata => Sys2Proof.Machine.execWrSwitch wdata s
  | .unmapped d wdata => Sys2Proof.Machine.execUnmapped d wdata s
  | .initDir => Sys2Proof.Machine.execInitDir s
  | .initArm0 => Sys2Proof.Machine.execInitArm0 s
  | .initArm1 => Sys2Proof.Machine.execInitArm1 s
  | .pollSel => Sys2Proof.Machine.execPollSel s
  | .pollA => Sys2Proof.Machine.execPollA s
  | .pollB => Sys2Proof.Machine.execPollB s
  | .ready => Sys2Proof.Machine.execReady s
  | .notReady => Sys2Proof.Machine.execNotReady s
  | .convertState => Sys2Proof.Machine.execConvert s
  | .decideState => Sys2Proof.Machine.execDecide s
  | .actuate => Sys2Proof.Machine.execActuate s
  | .pace => Sys2Proof.Machine.execPace s
  | .reservedState code => Sys2Proof.Machine.execReservedState code s

end Sys2Proof.Machine
end

