-- ==== Sys2Proof/Machine/Fetch.lean ====
section
/-! DEFINITION. Which move is next, and where an operation stands that the next step runs. -/

namespace Sys2Proof.Machine

/-- The move the next step makes: what the outside world has asked for, else what the free schedule says
(spec/20_memory.md R60; log entry 1). -/
def nextMove (s : State) : Move :=
  match s.agenda with
  | m :: _ => m
  | [] => .agent (Config.schedule s.tick)

/-- The state with the next move taken off: only the model's own `agenda` and `tick` change. -/
def takeMove (s : State) : State := { s with agenda := s.agenda.tail, tick := s.tick + 1 }

/-- The operation a move runs: `SEQ` runs the one its state code names (spec/30_encoding.md R76), a bus
transaction the one its descriptor names (R71); the other moves run none. -/
def fetched (m : Move) (s : State) : Option Instr :=
  match m with
  | .agent .seq => some (decodeState s.fsm)
  | .transfer d w => some (decodeTransfer d w)
  | .agent (.complete _ _) => none
  | .agent (.invalidate _) => none
  | .agent (.setSwitch _) => none
  | .request _ => none
  | .reset _ _ => none

/-- A reset ends the run and starts a new one (spec/70_reset_and_hazards.md R250, R252); the model's own
fields go on. -/
def restart (c : Cfg) (d : ResetDraws) (s : State) : State :=
  { State.resetWith c d with agenda := s.agenda, tick := s.tick, draws := s.draws }

/-- The state in which the next step is `SEQ`'s and its state code is `c`. -/
def placeState (c : StateCode) (s : State) : State :=
  { s with fsm := c, agenda := .agent .seq :: s.agenda }

/-- The state in which the next step performs the bus transaction `d` with data word `w`. -/
def placeTransfer (d : Descriptor) (w : Word) (s : State) : State :=
  { s with agenda := .transfer d w :: s.agenda }

/-- The state in which agent `m` moves next, and nothing else is asked for. -/
def choose (m : AgentMove) (s : State) : State := { s with agenda := [.agent m] }

end Sys2Proof.Machine
end

