-- ==== Sys2Proof/Machine/Step.lean ====
section
/-! DEFINITION. One step of the machine: one atomic move of one agent (spec/00_scope.md R5,
spec/20_memory.md R55, R60), a direct access, or a reset. -/

namespace Sys2Proof.Machine

/-- The effect of one move under a valid configuration. -/
def agentMove (m : AgentMove) (s : State) : Host.Outcome State Fault Refusal :=
  match m with
  | .seq => exec (decodeState s.fsm) s
  | .complete n v => runAction (offerComplete n v) s
  | .invalidate n => runAction (offerInvalidate n) s
  | .setSwitch b => runAction (setSwitch b) s

/-- `guardCfg c o`: a configuration that spec/00_scope.md R8 or spec/20_memory.md R51 refuses has no run. -/
def guardCfg (c : Cfg) (o : Host.Outcome State Fault Refusal) : Host.Outcome State Fault Refusal :=
  if cfgValid c then o else .refused (.configRefused c)

/-- Makes one move. -/
def makeMove (m : Move) (s : State) : Host.Outcome State Fault Refusal :=
  match m with
  | .agent a => guardCfg s.cfg (agentMove a s)
  | .transfer d w => guardCfg s.cfg (exec (decodeTransfer d w) s)
  | .request r => guardCfg s.cfg (runAction (rawRequest r) s)
  | .reset c d => guardCfg c (.next (restart c d s))

/-- One step: the next move, made. -/
def step (s : State) : Host.Outcome State Fault Refusal := makeMove (nextMove s) (takeMove s)

/-- Stores a table word where the next step takes its operation from: a state code in `fsm`, with `SEQ`
next to move, or a bus transaction next on the agenda (log entries 2 and 8). -/
def State.withFetchWord (s : State) (nbits w : Nat) : State :=
  match tableFormat nbits w, tableBytes nbits w with
  | .fsm, b :: _ => placeState (b.setWidth 4) s
  | .bus, d :: b0 :: b1 :: b2 :: b3 :: _ => placeTransfer d (wordOfLanes b0 b1 b2 b3) s
  | _, _ => s

end Sys2Proof.Machine
end

