-- ==== Sys2Proof/Machine/Text.lean ====
section
/-! DEFINITION. The textual form of operations and the pseudo-operations (spec/30_encoding.md R79, R80). -/

namespace Sys2Proof.Machine

/-- One hexadecimal digit. -/
def hexDigit (n : Nat) : String :=
  ["0", "1", "2", "3", "4", "5", "6", "7", "8", "9", "A", "B", "C", "D", "E", "F"].getD (n % 16) ""

/-- The last `k` hexadecimal digits of `n`. -/
def hexDigits : Nat → Nat → String
  | 0, _ => ""
  | k + 1, n => hexDigits k (n / 16) ++ hexDigit n

/-- A 32-bit hexadecimal literal `imm` (spec/30_encoding.md R79). -/
def immText (w : Word) : String := "0x" ++ hexDigits 8 w.toNat

/-- The line of a bus operation or the name of a sequencer state (spec/30_encoding.md R79). The notation
has no line for an unmapped access or a reserved state code. -/
def instrText : Instr → Option String
  | .rdAdc n => some ("RD ADC[" ++ hexDigit n.val ++ "]")
  | .wrAdc0 w => some ("WR ADC[0], " ++ immText w)
  | .wrAdc1 w => some ("WR ADC[1], " ++ immText w)
  | .rdGpioData => some "RD GPIO_DATA"
  | .wrGpioData w => some ("WR GPIO_DATA, " ++ immText w)
  | .rdGpioDir => some "RD GPIO_DIR"
  | .wrGpioDir w => some ("WR GPIO_DIR, " ++ immText w)
  | .rdSwitch => some "RD SWITCH"
  | .wrSwitch w => some ("WR SWITCH, " ++ immText w)
  | .unmapped _ _ => none
  | .initDir => some "INIT_DIR"
  | .initArm0 => some "INIT_ARM0"
  | .initArm1 => some "INIT_ARM1"
  | .pollSel => some "POLL_SEL"
  | .pollA => some "POLL_A"
  | .pollB => some "POLL_B"
  | .ready => some "READY"
  | .notReady => some "NOT_READY"
  | .convertState => some "CONVERT"
  | .decideState => some "DECIDE"
  | .actuate => some "ACTUATE"
  | .pace => some "PACE"
  | .reservedState _ => none

/-- The comment that stands beside a bus line, `; d=0xNN` (spec/30_encoding.md R79). -/
def descriptorText (d : Descriptor) : String := "; d=0x" ++ hexDigits 2 d.toNat

/-- `INIT` as bus operations (spec/30_encoding.md R80). -/
def initLines (c : Cfg) : List Instr :=
  [.wrGpioDir Config.dirMask, .wrAdc0 c.triggerValue, .wrAdc1 c.triggerValue]

/-- `INIT` as sequencer states (spec/30_encoding.md R80). -/
def initStates : List Instr := [.initDir, .initArm0, .initArm1]

/-- The poll states of an iteration, by strategy (spec/30_encoding.md R80). -/
def pollStates : Strategy → List Instr
  | .bucket => [.pollSel, .pollA]
  | .threshold => [.pollA, .pollB]

/-- `ITER.B` and `ITER.T`: the states of one iteration, by whether its readiness test passes
(spec/30_encoding.md R80). -/
def iterationStates (st : Strategy) (ok : Bool) : List Instr :=
  pollStates st ++ (if ok then [.ready, .convertState, .decideState, .actuate, .pace] else [.notReady, .pace])

end Sys2Proof.Machine
end

