-- ==== Sys2Proof/Safety.lean ====
section
/-! DEFINITION. What the claims speak of: the invariants of the sequencer, of the ADC and of the event
history, the states that runs reach (spec/70_reset_and_hazards.md R262), and the event history's shape
(spec/44_sequencer.md R213). -/

namespace Sys2Proof.Machine

/-! ## The sequencer -/

/-- The state codes a strategy uses (spec/44_sequencer.md R216). -/
def codeAllowed (st : Strategy) (c : StateCode) : Bool :=
  decide (c.toNat ≤ 0xB) && !(st == .threshold && c == Code.pollSel) && !(st == .bucket && c == Code.pollB)

/-- The transition table (spec/44_sequencer.md R217); `none` is the table's "fault `BAD_STATE`". -/
def nextCode (st : Strategy) (ok : Bool) (c : StateCode) : Option StateCode :=
  if c = Code.initDir then some Code.initArm0
  else if c = Code.initArm0 then some Code.initArm1
  else if c = Code.initArm1 then some (firstPoll st)
  else if c = Code.pollSel then (if st = .bucket then some Code.pollA else none)
  else if c = Code.pollA then (if st = .bucket then some (branchReady ok) else some Code.pollB)
  else if c = Code.pollB then (if st = .bucket then none else some (branchReady ok))
  else if c = Code.ready then some Code.convert
  else if c = Code.notReady then some Code.pace
  else if c = Code.convert then some Code.decide
  else if c = Code.decide then some Code.actuate
  else if c = Code.actuate then some Code.pace
  else if c = Code.pace then some (firstPoll st)
  else none

/-- Whether a pipeline register is written. -/
def Pipeline.isWritten (p : Pipeline) : PipeReg → Bool
  | .sel => p.sel.isSome
  | .ch => p.ch.isSome
  | .sa => p.sa.isSome
  | .sb => p.sb.isSome
  | .ma => p.ma.isSome
  | .mb => p.mb.isSome
  | .vel => p.vel.isSome
  | .ang => p.ang.isSome
  | .stall => p.stall.isSome
  | .level => p.level.isSome
  | .pat => p.pat.isSome

/-- The pipeline registers. -/
def allPipeRegs : List PipeReg := [.sel, .ch, .sa, .sb, .ma, .mb, .vel, .ang, .stall, .level, .pat]

/-- Exactly the registers of `l` are written. -/
def Pipeline.writtenExactly (p : Pipeline) (l : List PipeReg) : Bool :=
  allPipeRegs.all fun r => p.isWritten r == l.contains r

/-- The registers that an iteration has written when its polls are done (spec/10_state.md R30). -/
def polledRegs : Strategy → List PipeReg
  | .bucket => [.sel, .ch, .sa]
  | .threshold => [.sa, .sb]

/-- The registers that an iteration has written when `CONVERT` is done (spec/10_state.md R30). -/
def convertedRegs : Strategy → List PipeReg
  | .bucket => [.sel, .ch, .sa, .ma]
  | .threshold => [.sa, .sb, .ma, .mb, .vel, .ang]

/-- The registers that an iteration has written when `DECIDE` is done (spec/10_state.md R30). -/
def decidedRegs : Strategy → List PipeReg
  | .bucket => [.sel, .ch, .sa, .ma, .level]
  | .threshold => [.sa, .sb, .ma, .mb, .vel, .ang, .stall]

/-- The registers that an iteration has written when `ACTUATE` is done (spec/10_state.md R30). -/
def actuatedRegs (st : Strategy) : List PipeReg := .pat :: decidedRegs st

/-- The pipeline holds what the iteration has written when the state code is `c`, and nothing else. -/
def stageMatches (st : Strategy) (c : StateCode) (p : Pipeline) : Bool :=
  if c = Code.pollA then p.writtenExactly (match st with
    | .bucket => [.sel, .ch]
    | .threshold => [])
  else if c = Code.pollB then p.writtenExactly [.sa]
  else if c = Code.ready then p.writtenExactly (polledRegs st)
  else if c = Code.notReady then p.writtenExactly (polledRegs st)
  else if c = Code.convert then p.writtenExactly (polledRegs st)
  else if c = Code.decide then p.writtenExactly (convertedRegs st)
  else if c = Code.actuate then p.writtenExactly (decidedRegs st)
  else if c = Code.pace then p.writtenExactly (polledRegs st) || p.writtenExactly (actuatedRegs st)
  else p.writtenExactly []

/-- Every sample word of the iteration passes the detector (spec/44_sequencer.md R206). -/
def samplesPassed (c : Cfg) (p : Pipeline) : Bool :=
  match c.strategy with
  | .bucket => p.sa.any (readyOk c)
  | .threshold => p.sa.any (readyOk c) && p.sb.any (readyOk c)

/-- Past the branch, and at `PACE` with a decision made, the samples passed the detector
(spec/41_adc_mux_ready.md R132, spec/70_reset_and_hazards.md R261). -/
def magnitudesGuarded (s : State) : Bool :=
  if s.fsm = Code.ready ∨ s.fsm = Code.convert ∨ s.p.ma.isSome then samplesPassed s.cfg s.p else true

/-- The pattern a strategy gives the sample words of one iteration (spec/44_sequencer.md R218). -/
def samplePattern (c : Cfg) (wa wb : Word) : Pattern :=
  match c.strategy with
  | .bucket => barPattern (levelEnc (mag wa))
  | .threshold => stallPattern (stallCmp (convVel (mag wa)) (convAng (mag wb)))

/-- Every written pipeline register is the function of this iteration's sample words that the rules
give (spec/44_sequencer.md R208 to R210, R218). -/
structure Dataflow (c : Cfg) (p : Pipeline) : Prop where
  ch : p.ch = p.sel.map fun b => channelOfBit (b.getLsbD 0)
  ma : ∀ m, p.ma = some m → p.sa.map mag = some m
  mb : ∀ m, p.mb = some m → p.sb.map mag = some m
  vel : ∀ v, p.vel = some v → p.sa.map (fun w => convVel (mag w)) = some v
  ang : ∀ a, p.ang = some a → p.sb.map (fun w => convAng (mag w)) = some a
  level : ∀ k, p.level = some k → p.sa.map (fun w => levelEnc (mag w)) = some k
  stall : ∀ b, p.stall = some b →
    ∃ wa wb, p.sa = some wa ∧ p.sb = some wb ∧ b = stallCmp (convVel (mag wa)) (convAng (mag wb))
  pat : ∀ x, p.pat = some x → ∃ wa, p.sa = some wa ∧ x = samplePattern c wa (p.sb.getD 0#32)

/-- The sequencer's invariant (spec/44_sequencer.md R216). -/
structure SeqInv (s : State) : Prop where
  code : codeAllowed s.cfg.strategy s.fsm = true
  stage : stageMatches s.cfg.strategy s.fsm s.p = true
  guarded : magnitudesGuarded s = true
  flow : Dataflow s.cfg s.p

/-! ## The event history -/

/-- `(kind, register, value)` of an event (spec/20_memory.md R56). -/
def BusEvent.body (e : BusEvent) : AccessKind × Reg × Word := (e.kind, e.reg, e.value)

/-- The events are numbered one by one in the order issued (spec/20_memory.md R56), from 0, which is the
model's choice (log entry 24). -/
def historyNumbered (s : State) : Prop :=
  s.seqNo = s.events.length ∧ s.events.map BusEvent.seqNo = List.range s.events.length

/-- The word last written to a register. -/
def lastWrite (reg : Reg) (es : List BusEvent) : Option Word :=
  (es.reverse.find? fun e => e.kind == .wr && e.reg == reg).map BusEvent.value

/-- Whether an event is a nonzero write to ADC channel `n`. -/
def BusEvent.commands (n : Channel) (e : BusEvent) : Bool :=
  e.kind == .wr && e.reg == .adcChannel n && e.value != 0#32

/-- The mode that the nonzero ADC writes of a history leave (spec/41_adc_mux_ready.md R126). -/
def historyMode (es : List BusEvent) : AdcMode :=
  if es.any (BusEvent.commands 1) then .cont
  else if es.any (BusEvent.commands 0) then .single
  else .off

/-- The GPIO registers hold what was last written to them, else their reset values
(spec/43_gpio_driver.md R184, spec/10_state.md R34). -/
def gpioFollowsHistory (s : State) : Prop :=
  s.gpioData = ((lastWrite .gpioData s.events).map indicatorBits).getD s.cfg.gpioDataReset ∧
  s.gpioDir = ((lastWrite .gpioDir s.events).map indicatorBits).getD 0#10

/-- The mode is the one the history leaves, no flag or pending conversion exists before the first
command, and every channel converts in `CONT` (spec/41_adc_mux_ready.md R125 to R127). -/
structure AdcInv (s : State) : Prop where
  mode : s.adcMode = historyMode s.events
  off : s.adcMode = .off → s.adcBusy = ⟨false, false⟩ ∧ s.adcRdy = ⟨false, false⟩
  cont : s.adcMode = .cont → s.adcBusy = ⟨true, true⟩

/-! ## Who writes a register -/

/-- The state code whose action writes a register, if one does (spec/30_encoding.md R78). -/
def writerCode : Reg → Option StateCode
  | .adcChannel n => some (if n = 0 then Code.initArm0 else Code.initArm1)
  | .gpioData => some Code.actuate
  | .gpioDir => some Code.initDir
  | .switchInput => none

/-- The descriptor that writes a register (spec/30_encoding.md R71). -/
def writeDescriptor : Reg → Descriptor
  | .adcChannel n => if n = 0 then 0x80#8 else 0x81#8
  | .gpioData => 0xA0#8
  | .gpioDir => 0xA1#8
  | .switchInput => 0xC0#8

/-- The next move is one that writes `reg`: `SEQ` at the state that does, or an access put to the block
directly, by descriptor or by address. -/
def nextWrites (reg : Reg) (s : State) : Prop :=
  (nextMove s = .agent .seq ∧ writerCode reg = some s.fsm) ∨
  (∃ w, nextMove s = .transfer (writeDescriptor reg) w) ∨
  (∃ r, nextMove s = .request r ∧ r.we = true ∧ r.addr = registerAddr s.cfg reg ∧ r.size = 4)

/-! ## Runs -/

/-- A run of the block under configuration `c`: from reset, any agent may move next
(spec/20_memory.md R60). `RunsTo c n s`: some run reaches `s`, with `n` completed `PACE`s. -/
inductive RunsTo (c : Cfg) : Nat → State → Prop where
  | reset (d : ResetDraws) (valid : cfgValid c = true) : RunsTo c 0 (State.resetWith c d)
  | move {n : Nat} {s t : State} (m : AgentMove) (run : RunsTo c n s) (moved : step (choose m s) = .next t) :
      RunsTo c (if m = .seq ∧ s.fsm = Code.pace then n + 1 else n) t

/-- The states a run reaches when `SEQ` completes its `n`-th `PACE` (spec/70_reset_and_hazards.md R262 (b)). -/
def ObservedAt (c : Cfg) (n : Nat) (t : State) : Prop :=
  ∃ s k, n = k + 1 ∧ RunsTo c k s ∧ s.fsm = Code.pace ∧ step (choose .seq s) = .next t

/-- The events of `INIT` (spec/44_sequencer.md R213). -/
def initEvents (c : Cfg) : List (AccessKind × Reg × Word) :=
  [(.wr, .gpioDir, Config.dirMask), (.wr, .adcChannel 0, c.triggerValue), (.wr, .adcChannel 1, c.triggerValue)]

/-- The events of one iteration, by the two words it reads (spec/44_sequencer.md R213). -/
def iterationEvents (c : Cfg) (w1 w2 : Word) : List (AccessKind × Reg × Word) :=
  match c.strategy with
  | .bucket =>
    [(.rd, .switchInput, w1), (.rd, .adcChannel (muxSel w1), w2)] ++
      (if readyOk c w2 then [(.wr, .gpioData, patternWord (barPattern (levelEnc (mag w2))))] else [])
  | .threshold =>
    [(.rd, .adcChannel c.velCh, w1), (.rd, .adcChannel c.angCh, w2)] ++
      (if bothReady c w1 w2 then
        [(.wr, .gpioData, patternWord (stallPattern (stallCmp (convVel (mag w1)) (convAng (mag w2)))))]
      else [])

/-- The events of the iteration under way: one for each access whose word the pipeline holds, `w1` being the
switch word (spec/44_sequencer.md R203 to R205, R210, R213). -/
def openEvents (c : Cfg) (p : Pipeline) (w1 : Word) : List (AccessKind × Reg × Word) :=
  (if p.sel.isSome then [(.rd, .switchInput, w1)] else []) ++
  (p.sa.toList.map fun w => (.rd, .adcChannel (match c.strategy with
    | .bucket => muxSel w1
    | .threshold => c.velCh), w)) ++
  (p.sb.toList.map fun w => (.rd, .adcChannel c.angCh, w)) ++
  (p.pat.toList.map fun x => (.wr, .gpioData, patternWord x))

/-- The history is the `INIT` events done, then whole iterations, then the part of an iteration that the
pipeline shows; and `NOT_READY` is taken only where the readiness test failed (spec/44_sequencer.md R213,
R217). -/
structure HistoryInv (s : State) : Prop where
  init : s.fsm.toNat ≤ 2 → s.events.map BusEvent.body = (initEvents s.cfg).take s.fsm.toNat
  iterations : 2 < s.fsm.toNat → ∃ (words : List (Word × Word)) (w1 : Word),
    s.events.map BusEvent.body =
      initEvents s.cfg ++ (words.flatMap fun x => iterationEvents s.cfg x.1 x.2) ++ openEvents s.cfg s.p w1 ∧
    ∀ n, s.p.ch = some n → n = muxSel w1
  failed : s.fsm = Code.notReady ∨ (s.fsm = Code.pace ∧ s.p.pat = none) → samplesPassed s.cfg s.p = false

/-- An endless run, as its states and the moves between them. -/
structure EndlessRun (c : Cfg) where
  /-- The state before move `k`. -/
  state : Nat → State
  /-- Move `k`. -/
  move : Nat → AgentMove
  starts : ∃ d, state 0 = State.resetWith c d
  steps : ∀ k, step (choose (move k) (state k)) = .next (state (k + 1))

/-- Move `k` is a poll read of channel `n`. -/
def EndlessRun.polls {c : Cfg} (r : EndlessRun c) (n : Channel) (k : Nat) : Prop :=
  r.move k = .seq ∧ ∃ i, i + 1 = (r.state (k + 1)).events.length ∧ (r.state k).events.length = i ∧
    (((r.state (k + 1)).events.getLast?.map fun e => (e.kind, e.reg)) = some (.rd, .adcChannel n))

/-- Move `k` is a `COMPLETE` of channel `n` that is taken. -/
def EndlessRun.completes {c : Cfg} (r : EndlessRun c) (n : Channel) (k : Nat) : Prop :=
  adcEnabled n (r.state k) = true ∧ ∃ v, r.move k = .complete n v

/-- `ADC_FAIR`, the assumption of spec/41_adc_mux_ready.md R128, not a property of the block. -/
def EndlessRun.adcFair {c : Cfg} (r : EndlessRun c) : Prop :=
  ∀ n k, (r.state k).adcMode = .cont →
    (∃ j, k ≤ j ∧ r.completes n j) ∧
    ((∀ j, ∃ i, j ≤ i ∧ r.polls n i) →
      ∃ i j l, k ≤ i ∧ i < j ∧ j < l ∧ r.polls n i ∧ r.completes n j ∧ r.polls n l ∧
        ∀ x, i < x → x < l → ¬ r.polls n x)

end Sys2Proof.Machine
end

