-- ==== Sys2Proof/Certificates/Slice0/Obligations.lean ====
section
/-! DEFINITION. The statements about the model, each from the rules of spec/ it names. -/

open Sys2Proof Sys2Proof.Machine

/-! ## Encodings -/

/-- spec/30_encoding.md R70, R71, R76: no bit of a well-formed operation's stored form is dropped. The
stored form of a state code is the model's choice (log entry 2). -/
def Obligations.DecodeUndoesEncode : Prop :=
  ∀ (i : Instr) (rest : List Byte), i.wellFormed = true → decode i.format (encode i ++ rest) = .ok (i, rest)

/-- spec/30_encoding.md R70, R71, R76: whatever the decoder accepts is the stored form of what it answers. The stored
form is the model's choice (log entry 2). -/
def Obligations.EncodeUndoesDecode : Prop :=
  ∀ (f : Format) (bytes rest : List Byte) (i : Instr), decode f bytes = .ok (i, rest) →
    i.wellFormed = true ∧ i.format = f ∧ encode i ++ rest = bytes

/-- spec/30_encoding.md R71, line by line. -/
def Obligations.EveryDescriptorDecodesByTheTable : Prop :=
  ∀ (w : Word),
    decodeTransfer 0x00#8 w = .rdAdc 0 ∧ decodeTransfer 0x01#8 w = .rdAdc 1 ∧
    decodeTransfer 0x80#8 w = .wrAdc0 w ∧ decodeTransfer 0x81#8 w = .wrAdc1 w ∧
    decodeTransfer 0x20#8 w = .rdGpioData ∧ decodeTransfer 0xA0#8 w = .wrGpioData w ∧
    decodeTransfer 0x21#8 w = .rdGpioDir ∧ decodeTransfer 0xA1#8 w = .wrGpioDir w ∧
    decodeTransfer 0x40#8 w = .rdSwitch ∧ decodeTransfer 0xC0#8 w = .wrSwitch w ∧
    ∀ d : Descriptor,
      ((descriptorRegion d = 0#2 ∧ 2 ≤ (descriptorIndex d).toNat) ∨
        (descriptorRegion d = 1#2 ∧ 2 ≤ (descriptorIndex d).toNat) ∨
        (descriptorRegion d = 2#2 ∧ 1 ≤ (descriptorIndex d).toNat) ∨ descriptorRegion d = 3#2) →
      ∃ w', decodeTransfer d w = .unmapped d w'

/-- spec/30_encoding.md R76 and R77, line by line. -/
def Obligations.EveryStateCodeDecodesByTheTable : Prop :=
  decodeState 0x0#4 = .initDir ∧ decodeState 0x1#4 = .initArm0 ∧ decodeState 0x2#4 = .initArm1 ∧
  decodeState 0x3#4 = .pollSel ∧ decodeState 0x4#4 = .pollA ∧ decodeState 0x5#4 = .pollB ∧
  decodeState 0x6#4 = .ready ∧ decodeState 0x7#4 = .notReady ∧ decodeState 0x8#4 = .convertState ∧
  decodeState 0x9#4 = .decideState ∧ decodeState 0xA#4 = .actuate ∧ decodeState 0xB#4 = .pace ∧
  ∀ c : StateCode, 0xC ≤ c.toNat → decodeState c = .reservedState c

/-- spec/30_encoding.md, before R70: "Exactly one row selects each of the 256 descriptors and each of the
16 state codes"; and the decoder answers that row's operation. -/
def Obligations.OneTableRowSelectsEachCode : Prop :=
  (∀ (d : Descriptor) (w : Word), ∃ r, selectedRows .bus d = [r] ∧ (decodeTransfer d w).op = r.op) ∧
  (∀ c : StateCode, ∃ r, selectedRows .fsm (c.setWidth 8) = [r] ∧ (decodeState c).op = r.op)

/-- spec/30_encoding.md R70, R76, spec/20_memory.md R54: words written out from the encodings. -/
def Obligations.WrittenOutWordsDecode : Prop :=
  decode .bus [0x01#8] = .ok (.rdAdc 1, []) ∧
  decode .bus [0xA0#8, 0x1F#8, 0x00#8, 0xFC#8, 0xFF#8] = .ok (.wrGpioData 0xFFFC001F#32, []) ∧
  decode .bus [0x22#8] = .ok (.unmapped 0x22#8 0#32, []) ∧
  decode .fsm [0x0A#8, 0x40#8] = .ok (.actuate, [0x40#8]) ∧
  decode .fsm [0x10#8] = .error .stateCodeTooWide

/-! ## The step -/

/-- spec/30_encoding.md R76, spec/20_memory.md R55: one step of `SEQ` runs the operation its state code
names, and a direct transaction the operation its descriptor names. Beside the operation the step takes
the move off the model's own agenda and counts the model's own tick (log entry 1), and nothing else. -/
def Obligations.StepRunsTheDecodedInstruction : Prop :=
  ∀ (s : State), cfgValid s.cfg = true →
    (nextMove s = .agent .seq →
      step s = exec (decodeState s.fsm) { s with agenda := s.agenda.tail, tick := s.tick + 1 }) ∧
    (∀ d w, nextMove s = .transfer d w →
      step s = exec (decodeTransfer d w) { s with agenda := s.agenda.tail, tick := s.tick + 1 }) ∧
    (∀ m i, nextMove s = m → fetched m s = some i → i.wellFormed = true ∧
      step s = exec i { s with agenda := s.agenda.tail, tick := s.tick + 1 })

/-- Log entries 2 and 8 (the model's choices): a table word stored by `withFetchWord` is what the very
next step runs, in the state it was stored into. -/
def Obligations.StoredTableWordRunsNext : Prop :=
  ∀ (s : State) (nbits w : Nat) (i : Instr), cfgValid s.cfg = true → decodeTableWord nbits w = some i →
    step (s.withFetchWord nbits w) =
      exec i { s with
        tick := s.tick + 1
        fsm := if i.format = .fsm then BitVec.ofNat 4 (w % 2 ^ nbits) else s.fsm }

/-! ## Register accesses (spec/40_bus_access.md) -/

/-- spec/40_bus_access.md R100. -/
def Obligations.RdAdcReturnsOneSample : Prop :=
  ∀ (n : Channel) (s : State), cfgValid s.cfg = true → s.fault = none →
    (∀ x, decodeTransfer (0x00#8 ||| BitVec.ofNat 8 n.val) x = .rdAdc n) ∧
    ∃ w : Word,
      exec (.rdAdc n) s = .next { s with
        draws := s.draws + 1
        seqNo := s.seqNo + 1
        events := s.events ++ [⟨s.seqNo, .rd, .adcChannel n, w⟩] } ∧
      w &&& s.cfg.adcReadyMask = (if s.adcRdy.get n then s.cfg.adcReadyMask else 0#32) ∧
      (s.adcRdy.get n = true → w &&& Config.magMask = (s.adcMag.get n).setWidth 32) ∧
      (s.adcRdy.get n = false → w &&& Config.magMask = Config.draw s.draws &&& Config.magMask) ∧
      w &&& ~~~(s.cfg.adcReadyMask ||| Config.magMask) =
        Config.draw s.draws &&& ~~~(s.cfg.adcReadyMask ||| Config.magMask)

/-- spec/40_bus_access.md R101. -/
def Obligations.WrAdc0RequestsSingleShot : Prop :=
  ∀ (w : Word) (s : State), cfgValid s.cfg = true → s.fault = none →
    decodeTransfer 0x80#8 w = .wrAdc0 w ∧
    (w ≠ 0#32 → exec (.wrAdc0 w) s = .next { s with
      adcBusy := ⟨true, true⟩
      adcMode := if s.adcMode = .cont then .cont else .single
      seqNo := s.seqNo + 1
      events := s.events ++ [⟨s.seqNo, .wr, .adcChannel 0, w⟩] }) ∧
    (w = 0#32 → exec (.wrAdc0 w) s = .next { s with
      seqNo := s.seqNo + 1
      events := s.events ++ [⟨s.seqNo, .wr, .adcChannel 0, w⟩] })

/-- spec/40_bus_access.md R102: the write, and that no operation leaves `CONT`. -/
def Obligations.WrAdc1EnablesContinuous : Prop :=
  (∀ (w : Word) (s : State), cfgValid s.cfg = true → s.fault = none →
    decodeTransfer 0x81#8 w = .wrAdc1 w ∧
    (w ≠ 0#32 → exec (.wrAdc1 w) s = .next { s with
      adcBusy := ⟨true, true⟩
      adcMode := .cont
      seqNo := s.seqNo + 1
      events := s.events ++ [⟨s.seqNo, .wr, .adcChannel 1, w⟩] }) ∧
    (w = 0#32 → exec (.wrAdc1 w) s = .next { s with
      seqNo := s.seqNo + 1
      events := s.events ++ [⟨s.seqNo, .wr, .adcChannel 1, w⟩] })) ∧
  (∀ (i : Instr) (s t : State), s.adcMode = .cont → exec i s = .next t → t.adcMode = .cont)

/-- spec/40_bus_access.md R103. -/
def Obligations.RdGpioDataReadsBackDrivenBits : Prop :=
  ∀ (s : State), cfgValid s.cfg = true → s.fault = none →
    (∀ x, decodeTransfer 0x20#8 x = .rdGpioData) ∧
    ∃ w : Word,
      exec .rdGpioData s = .next { s with
        draws := s.draws + 1
        seqNo := s.seqNo + 1
        events := s.events ++ [⟨s.seqNo, .rd, .gpioData, w⟩] } ∧
      (∀ i, i < 10 → w.getLsbD i =
        if s.gpioDir.getLsbD i then s.gpioData.getLsbD i else (Config.draw s.draws).getLsbD i) ∧
      (∀ i, 10 ≤ i → w.getLsbD i = (Config.draw s.draws).getLsbD i)

/-- spec/40_bus_access.md R104. -/
def Obligations.WrGpioDataLatchesTenBits : Prop :=
  ∀ (w : Word) (s : State), cfgValid s.cfg = true → s.fault = none →
    decodeTransfer 0xA0#8 w = .wrGpioData w ∧
    ∃ t, exec (.wrGpioData w) s = .next t ∧
      t = { s with
        gpioData := w.extractLsb' 0 10
        seqNo := s.seqNo + 1
        events := s.events ++ [⟨s.seqNo, .wr, .gpioData, w⟩] } ∧
      ∀ (i : Fin 10) (dir : Pattern), dir.getLsbD i.val = true →
        ledOut { t with gpioDir := dir } i = some (w.getLsbD i.val)

/-- spec/40_bus_access.md R105. -/
def Obligations.RdGpioDirReturnsADraw : Prop :=
  ∀ (s : State), cfgValid s.cfg = true → s.fault = none →
    (∀ x, decodeTransfer 0x21#8 x = .rdGpioDir) ∧
    exec .rdGpioDir s = .next { s with
      draws := s.draws + 1
      seqNo := s.seqNo + 1
      events := s.events ++ [⟨s.seqNo, .rd, .gpioDir, Config.draw s.draws⟩] }

/-- spec/40_bus_access.md R106. -/
def Obligations.WrGpioDirSetsOutputEnables : Prop :=
  ∀ (w : Word) (s : State), cfgValid s.cfg = true → s.fault = none →
    decodeTransfer 0xA1#8 w = .wrGpioDir w ∧
    ∃ t, exec (.wrGpioDir w) s = .next t ∧
      t = { s with
        gpioDir := w.extractLsb' 0 10
        seqNo := s.seqNo + 1
        events := s.events ++ [⟨s.seqNo, .wr, .gpioDir, w⟩] } ∧
      ledOe t = w.extractLsb' 0 10 ∧
      ∀ i : Fin 10, w.getLsbD i.val = false → ledOut t i = none

/-- spec/40_bus_access.md R107: the read, and that a later `SWITCH` step leaves the recorded word. -/
def Obligations.RdSwitchSamplesThePin : Prop :=
  (∀ (s : State), cfgValid s.cfg = true → s.fault = none →
    (∀ x, decodeTransfer 0x40#8 x = .rdSwitch) ∧
    ∃ w : Word,
      exec .rdSwitch s = .next { s with
        draws := s.draws + 1
        seqNo := s.seqNo + 1
        events := s.events ++ [⟨s.seqNo, .rd, .switchInput, w⟩] } ∧
      w.getLsbD 0 = s.sw ∧
      ∀ i, 1 ≤ i → w.getLsbD i = (Config.draw s.draws).getLsbD i) ∧
  (∀ (b : Bool) (s t : State), agentMove (.setSwitch b) s = .next t → t.events = s.events ∧ t.p = s.p)

/-- spec/40_bus_access.md R108. -/
def Obligations.WrSwitchOnlyRecordsItsEvent : Prop :=
  ∀ (w : Word) (s : State), cfgValid s.cfg = true → s.fault = none →
    decodeTransfer 0xC0#8 w = .wrSwitch w ∧
    exec (.wrSwitch w) s = .next { s with
      seqNo := s.seqNo + 1
      events := s.events ++ [⟨s.seqNo, .wr, .switchInput, w⟩] }

/-- spec/40_bus_access.md R109, spec/60_exceptions.md R231, R235: the fault record is all that changes. That a
region-11 descriptor records no address is log entry 11, and that a sum above 0xFFFFFFFF wraps is log entry
25. -/
def Obligations.UnmappedRecordsItsFault : Prop :=
  ∀ (d : Descriptor) (w : Word) (s : State), cfgValid s.cfg = true → s.fault = none →
    exec (.unmapped d w) s = .next { s with
      fault := some (.unmapped (some d)
        (if descriptorRegion d = 0#2 then some (s.cfg.adcBase + 4#32 * (descriptorIndex d).setWidth 32)
        else if descriptorRegion d = 1#2 then some (s.cfg.gpioBase + 4#32 * (descriptorIndex d).setWidth 32)
        else if descriptorRegion d = 2#2 then some (s.cfg.switchBase + 4#32 * (descriptorIndex d).setWidth 32)
        else none)) }

/-- spec/20_memory.md R52, R53, R58, spec/60_exceptions.md R234: the prologue of a raw request. The size and
alignment are looked at first; then an address that no register has is unmapped. -/
def Obligations.RawRequestIsCheckedBeforeItIsDecoded : Prop :=
  ∀ (r : BusRequest) (s : State), cfgValid s.cfg = true → s.fault = none → nextMove s = .request r →
    (r.size ≠ 4 ∨ r.addr.toNat % 4 ≠ 0 →
      step s = .next { s with
        agenda := s.agenda.tail
        tick := s.tick + 1
        fault := some (.unsupportedAccess none (some r.addr) r.size) }) ∧
    (r.size = 4 ∧ r.addr.toNat % 4 = 0 ∧ r.addr ≠ s.cfg.adcBase ∧ r.addr ≠ s.cfg.adcBase + 4#32 ∧
        r.addr ≠ s.cfg.gpioBase ∧ r.addr ≠ s.cfg.gpioBase + 4#32 ∧ r.addr ≠ s.cfg.switchBase →
      step s = .next { s with
        agenda := s.agenda.tail
        tick := s.tick + 1
        fault := some (.unmapped none (some r.addr)) })

/-- spec/30_encoding.md R70, spec/20_memory.md R51: a 4-byte request to the address that a mapped
descriptor reaches does what the descriptor's operation does. -/
def Obligations.RequestToAMappedAddressIsItsDescriptor : Prop :=
  ∀ (d : Descriptor) (r : BusRequest) (s : State), cfgValid s.cfg = true → d ∈ mappedDescriptors →
    descriptorAddr s.cfg d = some r.addr → r.size = 4 → r.we = descriptorWrites d →
    runAction (rawRequest r) s = exec (decodeTransfer d r.wdata) s

/-! ## The sequencer (spec/44_sequencer.md) -/

/-- spec/44_sequencer.md R200, R201, R202, R212; `TRIGGER_VALUE` is a parameter that no valid configuration has
at 0 (log entries 7 and 13). -/
def Obligations.InitPerformsTheStartupWrites : Prop :=
  ∀ (s : State), cfgValid s.cfg = true → s.fault = none →
    exec .initDir s = .next { s with
      gpioDir := 0x3FF#10
      fsm := Code.initArm0
      seqNo := s.seqNo + 1
      events := s.events ++ [⟨s.seqNo, .wr, .gpioDir, 0x000003FF#32⟩] } ∧
    exec .initArm0 s = .next { s with
      adcBusy := ⟨true, true⟩
      adcMode := if s.adcMode = .cont then .cont else .single
      fsm := Code.initArm1
      seqNo := s.seqNo + 1
      events := s.events ++ [⟨s.seqNo, .wr, .adcChannel 0, s.cfg.triggerValue⟩] } ∧
    exec .initArm1 s = .next { s with
      adcBusy := ⟨true, true⟩
      adcMode := .cont
      p := ⟨none, none, none, none, none, none, none, none, none, none, none⟩
      fsm := if s.cfg.strategy = .bucket then Code.pollSel else Code.pollA
      seqNo := s.seqNo + 1
      events := s.events ++ [⟨s.seqNo, .wr, .adcChannel 1, s.cfg.triggerValue⟩] }

/-- spec/44_sequencer.md R203, R215; the access is that of `RD_SWITCH`. -/
def Obligations.PollSelRoutesByTheSwitch : Prop :=
  ∀ (s : State), cfgValid s.cfg = true → s.fault = none →
    (s.cfg.strategy = .bucket → ∃ w : Word,
      exec .rdSwitch s = .next { s with
        draws := s.draws + 1
        seqNo := s.seqNo + 1
        events := s.events ++ [⟨s.seqNo, .rd, .switchInput, w⟩] } ∧
      exec .pollSel s = .next { s with
        draws := s.draws + 1
        seqNo := s.seqNo + 1
        events := s.events ++ [⟨s.seqNo, .rd, .switchInput, w⟩]
        p := { s.p with sel := some (if s.sw then 1#1 else 0#1), ch := some (if s.sw then 1 else 0) }
        fsm := Code.pollA }) ∧
    (s.cfg.strategy = .threshold → exec .pollSel s = .next { s with fault := some (.badState s.fsm) })

/-- spec/44_sequencer.md R204 and spec/10_state.md R30; the access is that of `RD_ADC`. `VEL_CH` is a parameter
(log entry 13). -/
def Obligations.PollAReadsTheFirstChannel : Prop :=
  ∀ (s : State), cfgValid s.cfg = true → s.fault = none →
    (∀ n, s.cfg.strategy = .bucket ∧ s.p.ch = some n ∨ s.cfg.strategy = .threshold ∧ n = s.cfg.velCh → ∃ w : Word,
      exec (.rdAdc n) s = .next { s with
        draws := s.draws + 1
        seqNo := s.seqNo + 1
        events := s.events ++ [⟨s.seqNo, .rd, .adcChannel n, w⟩] } ∧
      exec .pollA s = .next { s with
        draws := s.draws + 1
        seqNo := s.seqNo + 1
        events := s.events ++ [⟨s.seqNo, .rd, .adcChannel n, w⟩]
        p := { s.p with sa := some w }
        fsm := if s.cfg.strategy = .threshold then Code.pollB
          else if w &&& s.cfg.readyMask ≠ 0#32 then Code.ready else Code.notReady }) ∧
    (s.cfg.strategy = .bucket → s.p.ch = none →
      exec .pollA s = .next { s with fault := some (.unwritten .ch) })

/-- spec/44_sequencer.md R205, R215, spec/20_memory.md R56 and spec/10_state.md R30; the access is that of
`RD_ADC ANG_CH`. That the access and `p.sb` stand where `p.sa` is unwritten is log entry 18. -/
def Obligations.PollBReadsTheSecondChannel : Prop :=
  ∀ (s : State), cfgValid s.cfg = true → s.fault = none →
    (s.cfg.strategy = .threshold → ∃ w : Word,
      exec (.rdAdc s.cfg.angCh) s = .next { s with
        draws := s.draws + 1
        seqNo := s.seqNo + 1
        events := s.events ++ [⟨s.seqNo, .rd, .adcChannel s.cfg.angCh, w⟩] } ∧
      (∀ wa, s.p.sa = some wa → exec .pollB s = .next { s with
        draws := s.draws + 1
        seqNo := s.seqNo + 1
        events := s.events ++ [⟨s.seqNo, .rd, .adcChannel s.cfg.angCh, w⟩]
        p := { s.p with sb := some w }
        fsm := if wa &&& s.cfg.readyMask ≠ 0#32 ∧ w &&& s.cfg.readyMask ≠ 0#32 then Code.ready
          else Code.notReady }) ∧
      (s.p.sa = none → exec .pollB s = .next { s with
        draws := s.draws + 1
        seqNo := s.seqNo + 1
        events := s.events ++ [⟨s.seqNo, .rd, .adcChannel s.cfg.angCh, w⟩]
        p := { s.p with sb := some w }
        fault := some (.unwritten .sa) })) ∧
    (s.cfg.strategy = .bucket → exec .pollB s = .next { s with fault := some (.badState s.fsm) })

/-- spec/44_sequencer.md R206, R207, R211, R212. -/
def Obligations.BranchStatesAndPaceOnlyMoveOn : Prop :=
  ∀ (s : State), s.fault = none →
    exec .ready s = .next { s with fsm := Code.convert } ∧
    exec .notReady s = .next { s with fsm := Code.pace } ∧
    exec .pace s = .next { s with
      p := ⟨none, none, none, none, none, none, none, none, none, none, none⟩
      fsm := if s.cfg.strategy = .bucket then Code.pollSel else Code.pollA }

/-- spec/44_sequencer.md R208 and spec/10_state.md R30. That `p.ma` stands where `p.sb` is unwritten, and that
`p.sa` is read before `p.sb`, is log entry 18. -/
def Obligations.ConvertExtractsAndConverts : Prop :=
  ∀ (s : State), s.fault = none →
    (∀ wa, s.cfg.strategy = .bucket → s.p.sa = some wa →
      exec .convertState s = .next { s with
        p := { s.p with ma := some (wa.extractLsb' 0 12) }
        fsm := Code.decide }) ∧
    (∀ wa wb, s.cfg.strategy = .threshold → s.p.sa = some wa → s.p.sb = some wb →
      exec .convertState s = .next { s with
        p := { s.p with
          ma := some (wa.extractLsb' 0 12)
          mb := some (wb.extractLsb' 0 12)
          vel := some (300 * (wa.extractLsb' 0 12).toNat / 4095)
          ang := some (-30 + 60 * (wb.extractLsb' 0 12).toNat / 4095) }
        fsm := Code.decide }) ∧
    (s.p.sa = none → exec .convertState s = .next { s with fault := some (.unwritten .sa) }) ∧
    (∀ wa, s.cfg.strategy = .threshold → s.p.sa = some wa → s.p.sb = none →
      exec .convertState s = .next { s with
        p := { s.p with ma := some (wa.extractLsb' 0 12) }
        fault := some (.unwritten .sb) })

/-- spec/44_sequencer.md R209 and spec/10_state.md R30. That `p.vel` is read before `p.ang`, so that it is the
one recorded where both are unwritten, is log entry 18. -/
def Obligations.DecideAppliesTheStrategy : Prop :=
  ∀ (s : State), s.fault = none →
    (∀ m, s.cfg.strategy = .bucket → s.p.ma = some m →
      ∃ k : Level, k.val = 10 * m.toNat / 4095 ∧
        exec .decideState s = .next { s with p := { s.p with level := some k }, fsm := Code.actuate }) ∧
    (∀ v a, s.cfg.strategy = .threshold → s.p.vel = some v → s.p.ang = some a →
      exec .decideState s = .next { s with
        p := { s.p with stall := some (stallCmp v a) }
        fsm := Code.actuate }) ∧
    (s.cfg.strategy = .bucket → s.p.ma = none →
      exec .decideState s = .next { s with fault := some (.unwritten .ma) }) ∧
    (s.cfg.strategy = .threshold → s.p.vel = none →
      exec .decideState s = .next { s with fault := some (.unwritten .vel) }) ∧
    (∀ v, s.cfg.strategy = .threshold → s.p.vel = some v → s.p.ang = none →
      exec .decideState s = .next { s with fault := some (.unwritten .ang) })

/-- spec/44_sequencer.md R210, spec/43_gpio_driver.md R183 and spec/10_state.md R30. -/
def Obligations.ActuateWritesThePatternOnce : Prop :=
  ∀ (s : State), cfgValid s.cfg = true → s.fault = none →
    (∀ x, (∃ k, s.cfg.strategy = .bucket ∧ s.p.level = some k ∧ x = barPattern k) ∨
        (∃ b, s.cfg.strategy = .threshold ∧ s.p.stall = some b ∧ x = stallPattern b) →
      exec .actuate s = .next { s with
        p := { s.p with pat := some x }
        gpioData := x
        fsm := Code.pace
        seqNo := s.seqNo + 1
        events := s.events ++ [⟨s.seqNo, .wr, .gpioData, x.setWidth 32⟩] }) ∧
    (s.cfg.strategy = .bucket → s.p.level = none →
      exec .actuate s = .next { s with fault := some (.unwritten .level) }) ∧
    (s.cfg.strategy = .threshold → s.p.stall = none →
      exec .actuate s = .next { s with fault := some (.unwritten .stall) })

/-- spec/44_sequencer.md R215, spec/30_encoding.md R77, spec/60_exceptions.md R231. -/
def Obligations.ReservedStateRecordsBadState : Prop :=
  ∀ (c : StateCode) (s : State), s.fault = none →
    exec (.reservedState c) s = .next { s with fault := some (.badState s.fsm) }

/-- spec/44_sequencer.md R217: where each action leads, with `ok` the readiness of the words read. -/
def Obligations.ActionsFollowTheTransitionTable : Prop :=
  ∀ (s t : State), cfgValid s.cfg = true → exec (decodeState s.fsm) s = .next t →
    (t.fault = none → nextCode s.cfg.strategy (samplesPassed t.cfg t.p) s.fsm = some t.fsm) ∧
    (∀ ok, nextCode s.cfg.strategy ok s.fsm = none → t = { s with fault := some (.badState s.fsm) })

/-! ## Agents, faults, reset -/

/-- spec/41_adc_mux_ready.md R121, R122: an offered step is taken when it is enabled; where it is not, the
model's step leaves the machine alone (log entry 1). -/
def Obligations.AdcStepsHaveTheirEffectWhenEnabled : Prop :=
  ∀ (n : Channel) (s : State), cfgValid s.cfg = true → s.fault = none →
    (∀ v, nextMove s = .agent (.complete n v) → s.adcBusy.get n = true →
      step s = .next { s with
        agenda := s.agenda.tail
        tick := s.tick + 1
        adcMag := s.adcMag.set n v
        adcRdy := s.adcRdy.set n true
        adcBusy := s.adcBusy.set n (decide (s.adcMode = .cont)) }) ∧
    (nextMove s = .agent (.invalidate n) → s.adcBusy.get n = true →
      step s = .next { s with
        agenda := s.agenda.tail
        tick := s.tick + 1
        adcRdy := s.adcRdy.set n false }) ∧
    (∀ v, nextMove s = .agent (.complete n v) ∨ nextMove s = .agent (.invalidate n) →
      s.adcBusy.get n = false → step s = .next { s with agenda := s.agenda.tail, tick := s.tick + 1 })

/-- spec/60_exceptions.md R240. -/
def Obligations.SwitchStepSetsThePin : Prop :=
  ∀ (b : Bool) (s : State), cfgValid s.cfg = true → s.fault = none → nextMove s = .agent (.setSwitch b) →
    step s = .next { s with agenda := s.agenda.tail, tick := s.tick + 1, sw := b }

/-- spec/60_exceptions.md R232: after a fault no agent and no access has a step, and only a reset, which
starts a new run, leaves the fault record without one. -/
def Obligations.RecordedFaultIsSticky : Prop :=
  (∀ (i : Instr) (s : State) (r : FaultReason), s.fault = some r → exec i s = .fault (.stopped r)) ∧
  (∀ (s : State) (r : FaultReason), s.fault = some r → cfgValid s.cfg = true →
    (∀ c d, nextMove s ≠ .reset c d) → step s = .fault (.stopped r)) ∧
  (∀ (s t : State) (r : FaultReason), s.fault = some r → step s = .next t → ∃ c d, nextMove s = .reset c d)

/-- spec/70_reset_and_hazards.md R250, R252, spec/10_state.md R34: a reset restores every state element,
samples the configuration, and clears a fault. That `seq_no` starts again from 0 is log entry 24, and that the
model's own counters go on is log entry 12. -/
def Obligations.ResetRestoresEveryElement : Prop :=
  ∀ (s : State) (c : Cfg) (d : ResetDraws), cfgValid c = true → nextMove s = .reset c d →
    step s = .next
      { fsm := 0x0#4
        adcMode := .off
        adcBusy := ⟨false, false⟩
        adcRdy := ⟨false, false⟩
        adcMag := d.mag
        gpioData := c.gpioDataReset
        gpioDir := 0x000#10
        sw := d.sw
        p := ⟨none, none, none, none, none, none, none, none, none, none, none⟩
        fault := none
        seqNo := 0
        events := []
        cfg := c
        agenda := s.agenda.tail
        tick := s.tick + 1
        draws := s.draws }

/-- spec/00_scope.md R6, R8, spec/20_memory.md R51: which configurations have runs. That a window lies inside
the 32-bit address space, that `PACE_DELAY` is at least 1, that `TRIGGER_VALUE` is nonzero and that the two
roles have two channels is log entry 7; that any single bit in 31:12 is a mask is log entry 20. -/
def Obligations.ValidConfigurationsAreThoseOfTheRules : Prop :=
  ∀ (c : Cfg), cfgValid c = true ↔
    (∃ i, 12 ≤ i ∧ i < 32 ∧ ∀ j, c.adcReadyMask.getLsbD j = true ↔ j = i) ∧
    (∃ i, 12 ≤ i ∧ i < 32 ∧ ∀ j, c.readyMask.getLsbD j = true ↔ j = i) ∧
    c.adcBase.toNat % 4 = 0 ∧ c.gpioBase.toNat % 4 = 0 ∧ c.switchBase.toNat % 4 = 0 ∧
    c.adcBase.toNat + 8 ≤ 2 ^ 32 ∧ c.gpioBase.toNat + 8 ≤ 2 ^ 32 ∧ c.switchBase.toNat + 4 ≤ 2 ^ 32 ∧
    (∀ a : Nat, ¬ ((c.adcBase.toNat ≤ a ∧ a < c.adcBase.toNat + 8) ∧
      (c.gpioBase.toNat ≤ a ∧ a < c.gpioBase.toNat + 8))) ∧
    (∀ a : Nat, ¬ ((c.adcBase.toNat ≤ a ∧ a < c.adcBase.toNat + 8) ∧
      (c.switchBase.toNat ≤ a ∧ a < c.switchBase.toNat + 4))) ∧
    (∀ a : Nat, ¬ ((c.gpioBase.toNat ≤ a ∧ a < c.gpioBase.toNat + 8) ∧
      (c.switchBase.toNat ≤ a ∧ a < c.switchBase.toNat + 4))) ∧
    1 ≤ c.paceDelay ∧ c.triggerValue ≠ 0#32 ∧ c.velCh ≠ c.angCh

/-- spec/00_scope.md R8, spec/20_memory.md R51: an invalid configuration has no run. That the step is what
refuses is log entry 23, and what is invalid beside those rules is log entry 7. -/
def Obligations.InvalidConfigurationIsRefused : Prop :=
  (∀ (s : State), cfgValid s.cfg = false → (∀ c d, nextMove s ≠ .reset c d) →
    step s = .refused (.configRefused s.cfg)) ∧
  (∀ (s : State) (c : Cfg) (d : ResetDraws), cfgValid c = false → nextMove s = .reset c d →
    step s = .refused (.configRefused c))

/-! ## Who may change what -/

/-- spec/43_gpio_driver.md R184: only `ACTUATE`, a `WR_GPIO_DATA` put to the block directly, and reset
change the latch. -/
def Obligations.LatchKeepsItsValueUnlessWritten : Prop :=
  ∀ (s t : State), step s = .next t → t.gpioData ≠ s.gpioData →
    (nextMove s = .agent .seq ∧ s.fsm = Code.actuate) ∨ (∃ w, nextMove s = .transfer 0xA0#8 w) ∨
    (∃ r, nextMove s = .request r ∧ r.we = true ∧ r.addr = s.cfg.gpioBase ∧ r.size = 4) ∨
    (∃ c d, nextMove s = .reset c d)

/-- spec/10_state.md R20, R21, R23, R26, R29, R33, spec/20_memory.md R56, spec/41_adc_mux_ready.md R121 to R125,
spec/43_gpio_driver.md R184: each element has its own writers, and reset. -/
def Obligations.EachElementHasItsWriters : Prop :=
  ∀ (s t : State), step s = .next t → (∀ c d, nextMove s ≠ .reset c d) →
    t.cfg = s.cfg ∧
    (nextMove s ≠ .agent .seq → t.fsm = s.fsm ∧ t.p = s.p) ∧
    ((∀ b, nextMove s ≠ .agent (.setSwitch b)) → t.sw = s.sw) ∧
    (∀ n, t.adcMag.get n ≠ s.adcMag.get n → ∃ v, nextMove s = .agent (.complete n v)) ∧
    (∀ n, t.adcRdy.get n ≠ s.adcRdy.get n →
      (∃ v, nextMove s = .agent (.complete n v)) ∨ nextMove s = .agent (.invalidate n)) ∧
    (∀ n, t.adcBusy.get n ≠ s.adcBusy.get n →
      (∃ v, nextMove s = .agent (.complete n v)) ∨ nextWrites (.adcChannel 0) s ∨ nextWrites (.adcChannel 1) s) ∧
    (t.adcMode ≠ s.adcMode → nextWrites (.adcChannel 0) s ∨ nextWrites (.adcChannel 1) s) ∧
    (t.gpioData ≠ s.gpioData → nextWrites .gpioData s) ∧
    (t.gpioDir ≠ s.gpioDir → nextWrites .gpioDir s) ∧
    (∃ added, t.events = s.events ++ added ∧ t.seqNo = s.seqNo + added.length ∧ added.length ≤ 1) ∧
    (t.fault ≠ none → nextMove s = .agent .seq ∨ (∃ d w, nextMove s = .transfer d w) ∨ ∃ r, nextMove s = .request r)

/-- spec/41_adc_mux_ready.md R125, R126: `CONT` is absorbing until a reset, and in it every channel keeps
converting. -/
def Obligations.ContinuousModeIsAbsorbing : Prop :=
  ∀ (s t : State), step s = .next t → (∀ c d, nextMove s ≠ .reset c d) → s.adcMode = .cont →
    t.adcMode = .cont ∧ (s.adcBusy = ⟨true, true⟩ → t.adcBusy = ⟨true, true⟩)

/-! ## Invariants -/

/-- spec/44_sequencer.md R216: every step keeps the sequencer's invariant. -/
def Obligations.EveryStepKeepsTheSequencerInvariant : Prop :=
  ∀ (s t : State), SeqInv s → step s = .next t → SeqInv t

/-- spec/41_adc_mux_ready.md R126, R127: every step keeps the ADC's invariant. -/
def Obligations.EveryStepKeepsTheAdcInvariant : Prop :=
  ∀ (s t : State), AdcInv s → step s = .next t → AdcInv t

/-- spec/20_memory.md R56: every step keeps the history numbered in the order issued. That the first number is
0 is log entry 24. -/
def Obligations.EveryStepKeepsTheHistoryNumbered : Prop :=
  ∀ (s t : State), historyNumbered s → step s = .next t → historyNumbered t

/-- spec/43_gpio_driver.md R184: every step keeps the GPIO registers at what was last written to them. -/
def Obligations.EveryStepKeepsGpioFollowingHistory : Prop :=
  ∀ (s t : State), gpioFollowsHistory s → step s = .next t → gpioFollowsHistory t

/-- spec/10_state.md R34: the invariants hold right after every reset, `State.reset` among them, whose values
log entries 5 and 6 choose; that `seq_no` starts from 0 is log entry 24. -/
def Obligations.ResetMeetsTheInvariants : Prop :=
  (∀ (c : Cfg) (d : ResetDraws), SeqInv (State.resetWith c d) ∧ AdcInv (State.resetWith c d) ∧
    historyNumbered (State.resetWith c d) ∧ gpioFollowsHistory (State.resetWith c d) ∧
    HistoryInv (State.resetWith c d)) ∧
  State.reset = State.resetWith Config.platform ResetDraws.zero

/-! ## Runs -/

/-- spec/44_sequencer.md R216: no run from reset faults, and whichever agent is chosen the model's step answers
a next state. For a `COMPLETE` or `INVALIDATE` that is not enabled, which is no step of the spec (R121, R122),
that step idles (log entry 1). -/
def Obligations.NoRunFaults : Prop :=
  ∀ (c : Cfg) (n : Nat) (s : State), RunsTo c n s →
    s.fault = none ∧ s.cfg = c ∧ codeAllowed c.strategy s.fsm = true ∧
    ∀ m, ∃ t, step (choose m s) = .next t ∧ t.fault = none

/-- spec/44_sequencer.md R213, spec/70_reset_and_hazards.md R262 (b), R266: when `SEQ` completes its
`N`-th `PACE` the history is the three `INIT` events and then `N` iterations, each one of the rows. -/
def Obligations.HistoryIsInitThenIterations : Prop :=
  ∀ (c : Cfg) (n : Nat) (s : State), ObservedAt c n s →
    ∃ words : List (Word × Word), words.length = n ∧
      s.events.map BusEvent.body =
        initEvents c ++ words.flatMap fun x => iterationEvents c x.1 x.2

/-- spec/44_sequencer.md R218: `ACTUATE` writes the pattern of this iteration's sample words, all of which
passed the detector. -/
def Obligations.ActuateWritesTheSamplesPattern : Prop :=
  ∀ (s : State), SeqInv s → cfgValid s.cfg = true → s.fault = none → s.fsm = Code.actuate →
    ∃ t, exec (decodeState s.fsm) s = .next t ∧ t.fault = none ∧
      (s.cfg.strategy = .bucket → ∃ wa, s.p.sa = some wa ∧ readyOk s.cfg wa = true ∧
        t.gpioData = barPattern (levelEnc (mag wa))) ∧
      (s.cfg.strategy = .threshold → ∃ wa wb, s.p.sa = some wa ∧ s.p.sb = some wb ∧
        readyOk s.cfg wa = true ∧ readyOk s.cfg wb = true ∧
        t.gpioData = stallPattern (stallCmp (convVel (mag wa)) (convAng (mag wb))))

/-- spec/44_sequencer.md R200 (its corner case), spec/43_gpio_driver.md R186: before `INIT_DIR` no
indicator is driven, and from then on every one is, for the rest of the run. -/
def Obligations.DirectionIsFixedAfterInitDir : Prop :=
  ∀ (c : Cfg) (n : Nat) (s : State), RunsTo c n s →
    (s.fsm = Code.initDir → s.gpioDir = 0x000#10 ∧ ∀ i, ledOut s i = none) ∧
    (s.fsm ≠ Code.initDir → s.gpioDir = 0x3FF#10 ∧ ∀ i : Fin 10, ledOut s i = some (s.gpioData.getLsbD i.val))

/-- spec/41_adc_mux_ready.md R131, spec/40_bus_access.md R100, spec/44_sequencer.md R204: with the masks equal,
`POLL_A` branches on the polled channel's own flag, and it never writes the latch. -/
def Obligations.DetectorFollowsTheFlagWhenMasksAgree : Prop :=
  ∀ (n : Channel) (s : State), cfgValid s.cfg = true → s.fault = none → s.cfg.strategy = .bucket →
    s.cfg.readyMask = s.cfg.adcReadyMask → s.p.ch = some n →
    ∃ t, exec .pollA s = .next t ∧
      t.fsm = (if s.adcRdy.get n then Code.ready else Code.notReady) ∧
      (s.adcRdy.get n = true → t.p.sa.map mag = some (s.adcMag.get n)) ∧
      t.gpioData = s.gpioData

/-- spec/41_adc_mux_ready.md R133: when the masks differ, the detector tests a drawn bit, whatever the
channel's flag is. -/
def Obligations.MismatchedMaskTestsADraw : Prop :=
  ∀ (n : Channel) (s : State), cfgValid s.cfg = true → s.fault = none →
    s.cfg.readyMask ≠ s.cfg.adcReadyMask →
    ∃ w t, exec (.rdAdc n) s = .next t ∧ t.events = s.events ++ [⟨s.seqNo, .rd, .adcChannel n, w⟩] ∧
      readyOk s.cfg w = decide (Config.draw s.draws &&& s.cfg.readyMask ≠ 0#32)

/-! ## Multiplexer, detector, extractor, conversion, comparator, encoder, patterns, driver -/

/-- spec/41_adc_mux_ready.md R130, R131, R132. -/
def Obligations.MuxDetectorAndExtractorReadTheirBits : Prop :=
  ∀ (c : Cfg) (w : Word),
    (w.getLsbD 0 = false → muxSel w = 0) ∧ (w.getLsbD 0 = true → muxSel w = 1) ∧
    (readyOk c w = true ↔ ∃ i, w.getLsbD i = true ∧ c.readyMask.getLsbD i = true) ∧
    (mag w).toNat = w.toNat % 4096

/-- spec/42_compare_encode.md R150, R151: the formulas, the ends of the ranges, and strict increase. -/
def Obligations.ConversionsAreAffineAndIncreasing : Prop :=
  (∀ m : Magnitude, convVel m = 300 * m.toNat / 4095 ∧ convAng m = -30 + 60 * m.toNat / 4095) ∧
  convVel 0#12 = 0 ∧ convVel 4095#12 = 300 ∧ convAng 0#12 = -30 ∧ convAng 4095#12 = 30 ∧
  (∀ m n : Magnitude, m.toNat < n.toNat → convVel m < convVel n ∧ convAng m < convAng n)

/-- spec/42_compare_encode.md R153, R154, R157: the comparator compares with the real stall speed. -/
def Obligations.StallCmpComparesWithTheStallSpeed : Prop :=
  vStallSq = 32000 / 3 ∧
  ∀ v a : ℚ, stallCmp v a = true ↔ (v : ℝ) < Real.sqrt (32000 / 3) ∨ 15 < a

/-- spec/42_compare_encode.md R155. -/
def Obligations.IntegerThresholdsReplaceTheComparator : Prop :=
  ∀ mv ma : Magnitude, stallCmp (convVel mv) (convAng ma) = stallThresholds mv ma

/-- spec/42_compare_encode.md R156. -/
def Obligations.TiesNeverDecideAndNeverStall : Prop :=
  (∀ m : Magnitude, convVel m * convVel m ≠ vStallSq ∧ (convVel m : ℝ) ≠ Real.sqrt vStallSq ∧ convAng m ≠ 15) ∧
  (∀ speedSq angleMax v a : ℚ, 0 ≤ v → v * v = speedSq → belowSpeed speedSq v = false ∧
    stallCmpWith speedSq angleMax v angleMax = false ∧
    stallCmpWith speedSq angleMax v a = decide (angleMax < a)) ∧
  (∀ speedSq angleMax v : ℚ, stallCmpWith speedSq angleMax v angleMax = belowSpeed speedSq v)

/-- spec/42_compare_encode.md R162: level `k` begins at `ceil(4095·k/10)`. -/
def Obligations.LevelBoundariesAreTheTables : Prop :=
  (∀ (m : Magnitude) (k : Level), levelEnc m = k ↔
    (4095 * k.val + 9) / 10 ≤ m.toNat ∧ (k.val < 10 → m.toNat < (4095 * (k.val + 1) + 9) / 10)) ∧
  (List.range 11).map (fun k => (4095 * k + 9) / 10) = [0, 410, 819, 1229, 1638, 2048, 2457, 2867, 3276, 3686, 4095]

/-- spec/42_compare_encode.md R160, R161, R163. -/
def Obligations.LevelIsClampedAndMonotone : Prop :=
  (∀ m n : Magnitude, m.toNat ≤ n.toNat → (levelEnc m).val ≤ (levelEnc n).val) ∧
  (∀ m : Magnitude, (levelEnc m).val = 10 * m.toNat / 4095 ∧ (levelEnc m).val ≤ 10) ∧
  (∀ x : Nat, 10 ≤ x → (clampLevel x).val = 10) ∧
  (levelEnc 4095#12).val = 10 ∧ (levelEnc 0#12).val = 0 ∧ (levelEnc 2048#12).val = 5

/-- spec/43_gpio_driver.md R180, R181: the lit bits are the run `0..k−1`; a stall lights all ten. -/
def Obligations.PatternsLightTheirIndicators : Prop :=
  (∀ (k : Level) (i : Nat), (barPattern k).getLsbD i = decide (i < k.val)) ∧
  (∀ k : Level, (barPattern k).toNat = 2 ^ k.val - 1) ∧
  stallPattern true = 0x3FF#10 ∧ stallPattern false = 0x000#10

/-- spec/43_gpio_driver.md R185. -/
def Obligations.DriverShowsTheLatchWhereEnabled : Prop :=
  ∀ (s : State) (i : Fin 10),
    (ledOe s).getLsbD i.val = s.gpioDir.getLsbD i.val ∧
    (s.gpioDir.getLsbD i.val = true →
      ledOut s i = some (s.gpioData.getLsbD i.val) ∧ lit s i = s.gpioData.getLsbD i.val) ∧
    (s.gpioDir.getLsbD i.val = false →
      ledOut s i = none ∧ lit s i = (Config.undrivenPins s.tick).getLsbD i.val)

/-! ## The step lemma of runs -/

/-- spec/44_sequencer.md R213, R216, spec/60_exceptions.md R232: from every state without a fault that meets the
invariants of the sequencer and of the history, whichever agent moves, the step answers such a state. A
`COMPLETE` or `INVALIDATE` that is not enabled idles (log entry 1). -/
def Obligations.EveryAgentMoveKeepsTheRunInvariant : Prop :=
  ∀ (s : State) (m : AgentMove), nextMove s = .agent m → cfgValid s.cfg = true → s.fault = none → SeqInv s →
    HistoryInv s →
    ∃ t, step s = .next t ∧ t.fault = none ∧ t.cfg = s.cfg ∧ SeqInv t ∧ HistoryInv t
end

