-- ==== Sys2Proof/Laws/State.lean ====
section
/-! SUPPORT. One lemma per field per state update, so that no proof unfolds a record update. -/

namespace Sys2Proof.Machine

/-! ### `goto` -/

@[simp] theorem goto_fsm (c : StateCode) (s : State) : (goto c s).fsm = c := rfl
@[simp] theorem goto_adcMode (c : StateCode) (s : State) : (goto c s).adcMode = s.adcMode := rfl
@[simp] theorem goto_adcBusy (c : StateCode) (s : State) : (goto c s).adcBusy = s.adcBusy := rfl
@[simp] theorem goto_adcRdy (c : StateCode) (s : State) : (goto c s).adcRdy = s.adcRdy := rfl
@[simp] theorem goto_adcMag (c : StateCode) (s : State) : (goto c s).adcMag = s.adcMag := rfl
@[simp] theorem goto_gpioData (c : StateCode) (s : State) : (goto c s).gpioData = s.gpioData := rfl
@[simp] theorem goto_gpioDir (c : StateCode) (s : State) : (goto c s).gpioDir = s.gpioDir := rfl
@[simp] theorem goto_sw (c : StateCode) (s : State) : (goto c s).sw = s.sw := rfl
@[simp] theorem goto_p (c : StateCode) (s : State) : (goto c s).p = s.p := rfl
@[simp] theorem goto_fault (c : StateCode) (s : State) : (goto c s).fault = s.fault := rfl
@[simp] theorem goto_seqNo (c : StateCode) (s : State) : (goto c s).seqNo = s.seqNo := rfl
@[simp] theorem goto_events (c : StateCode) (s : State) : (goto c s).events = s.events := rfl
@[simp] theorem goto_cfg (c : StateCode) (s : State) : (goto c s).cfg = s.cfg := rfl
@[simp] theorem goto_agenda (c : StateCode) (s : State) : (goto c s).agenda = s.agenda := rfl
@[simp] theorem goto_tick (c : StateCode) (s : State) : (goto c s).tick = s.tick := rfl
@[simp] theorem goto_draws (c : StateCode) (s : State) : (goto c s).draws = s.draws := rfl

/-! ### `setPat` -/

@[simp] theorem setPat_p (x : Pattern) (s : State) : (setPat x s).p = { s.p with pat := some x } := rfl
@[simp] theorem setPat_fsm (x : Pattern) (s : State) : (setPat x s).fsm = s.fsm := rfl
@[simp] theorem setPat_adcMode (x : Pattern) (s : State) : (setPat x s).adcMode = s.adcMode := rfl
@[simp] theorem setPat_adcBusy (x : Pattern) (s : State) : (setPat x s).adcBusy = s.adcBusy := rfl
@[simp] theorem setPat_adcRdy (x : Pattern) (s : State) : (setPat x s).adcRdy = s.adcRdy := rfl
@[simp] theorem setPat_adcMag (x : Pattern) (s : State) : (setPat x s).adcMag = s.adcMag := rfl
@[simp] theorem setPat_gpioData (x : Pattern) (s : State) : (setPat x s).gpioData = s.gpioData := rfl
@[simp] theorem setPat_gpioDir (x : Pattern) (s : State) : (setPat x s).gpioDir = s.gpioDir := rfl
@[simp] theorem setPat_sw (x : Pattern) (s : State) : (setPat x s).sw = s.sw := rfl
@[simp] theorem setPat_fault (x : Pattern) (s : State) : (setPat x s).fault = s.fault := rfl
@[simp] theorem setPat_seqNo (x : Pattern) (s : State) : (setPat x s).seqNo = s.seqNo := rfl
@[simp] theorem setPat_events (x : Pattern) (s : State) : (setPat x s).events = s.events := rfl
@[simp] theorem setPat_cfg (x : Pattern) (s : State) : (setPat x s).cfg = s.cfg := rfl
@[simp] theorem setPat_agenda (x : Pattern) (s : State) : (setPat x s).agenda = s.agenda := rfl
@[simp] theorem setPat_tick (x : Pattern) (s : State) : (setPat x s).tick = s.tick := rfl
@[simp] theorem setPat_draws (x : Pattern) (s : State) : (setPat x s).draws = s.draws := rfl

/-! ### `startIteration` -/

@[simp] theorem startIteration_fsm (s : State) : (startIteration s).fsm = firstPoll s.cfg.strategy := rfl
@[simp] theorem startIteration_adcMode (s : State) : (startIteration s).adcMode = s.adcMode := rfl
@[simp] theorem startIteration_adcBusy (s : State) : (startIteration s).adcBusy = s.adcBusy := rfl
@[simp] theorem startIteration_adcRdy (s : State) : (startIteration s).adcRdy = s.adcRdy := rfl
@[simp] theorem startIteration_adcMag (s : State) : (startIteration s).adcMag = s.adcMag := rfl
@[simp] theorem startIteration_gpioData (s : State) : (startIteration s).gpioData = s.gpioData := rfl
@[simp] theorem startIteration_gpioDir (s : State) : (startIteration s).gpioDir = s.gpioDir := rfl
@[simp] theorem startIteration_sw (s : State) : (startIteration s).sw = s.sw := rfl
@[simp] theorem startIteration_p (s : State) : (startIteration s).p = Pipeline.empty := rfl
@[simp] theorem startIteration_fault (s : State) : (startIteration s).fault = s.fault := rfl
@[simp] theorem startIteration_seqNo (s : State) : (startIteration s).seqNo = s.seqNo := rfl
@[simp] theorem startIteration_events (s : State) : (startIteration s).events = s.events := rfl
@[simp] theorem startIteration_cfg (s : State) : (startIteration s).cfg = s.cfg := rfl
@[simp] theorem startIteration_agenda (s : State) : (startIteration s).agenda = s.agenda := rfl
@[simp] theorem startIteration_tick (s : State) : (startIteration s).tick = s.tick := rfl
@[simp] theorem startIteration_draws (s : State) : (startIteration s).draws = s.draws := rfl

/-! ### `record` -/

@[simp] theorem record_fsm (k : AccessKind) (r : Reg) (v : Word) (s : State) : (record k r v s).fsm = s.fsm := rfl
@[simp] theorem record_adcMode (k : AccessKind) (r : Reg) (v : Word) (s : State) : (record k r v s).adcMode = s.adcMode := rfl
@[simp] theorem record_adcBusy (k : AccessKind) (r : Reg) (v : Word) (s : State) : (record k r v s).adcBusy = s.adcBusy := rfl
@[simp] theorem record_adcRdy (k : AccessKind) (r : Reg) (v : Word) (s : State) : (record k r v s).adcRdy = s.adcRdy := rfl
@[simp] theorem record_adcMag (k : AccessKind) (r : Reg) (v : Word) (s : State) : (record k r v s).adcMag = s.adcMag := rfl
@[simp] theorem record_gpioData (k : AccessKind) (r : Reg) (v : Word) (s : State) : (record k r v s).gpioData = s.gpioData := rfl
@[simp] theorem record_gpioDir (k : AccessKind) (r : Reg) (v : Word) (s : State) : (record k r v s).gpioDir = s.gpioDir := rfl
@[simp] theorem record_sw (k : AccessKind) (r : Reg) (v : Word) (s : State) : (record k r v s).sw = s.sw := rfl
@[simp] theorem record_p (k : AccessKind) (r : Reg) (v : Word) (s : State) : (record k r v s).p = s.p := rfl
@[simp] theorem record_fault (k : AccessKind) (r : Reg) (v : Word) (s : State) : (record k r v s).fault = s.fault := rfl
@[simp] theorem record_seqNo (k : AccessKind) (r : Reg) (v : Word) (s : State) : (record k r v s).seqNo = s.seqNo + 1 := rfl
@[simp] theorem record_events (k : AccessKind) (r : Reg) (v : Word) (s : State) : (record k r v s).events = s.events ++ [⟨s.seqNo, k, r, v⟩] := rfl
@[simp] theorem record_cfg (k : AccessKind) (r : Reg) (v : Word) (s : State) : (record k r v s).cfg = s.cfg := rfl
@[simp] theorem record_agenda (k : AccessKind) (r : Reg) (v : Word) (s : State) : (record k r v s).agenda = s.agenda := rfl
@[simp] theorem record_tick (k : AccessKind) (r : Reg) (v : Word) (s : State) : (record k r v s).tick = s.tick := rfl
@[simp] theorem record_draws (k : AccessKind) (r : Reg) (v : Word) (s : State) : (record k r v s).draws = s.draws := rfl

/-! ### `raise` -/

@[simp] theorem raise_fsm (r : FaultReason) (s : State) : (raise r s).fsm = s.fsm := rfl
@[simp] theorem raise_adcMode (r : FaultReason) (s : State) : (raise r s).adcMode = s.adcMode := rfl
@[simp] theorem raise_adcBusy (r : FaultReason) (s : State) : (raise r s).adcBusy = s.adcBusy := rfl
@[simp] theorem raise_adcRdy (r : FaultReason) (s : State) : (raise r s).adcRdy = s.adcRdy := rfl
@[simp] theorem raise_adcMag (r : FaultReason) (s : State) : (raise r s).adcMag = s.adcMag := rfl
@[simp] theorem raise_gpioData (r : FaultReason) (s : State) : (raise r s).gpioData = s.gpioData := rfl
@[simp] theorem raise_gpioDir (r : FaultReason) (s : State) : (raise r s).gpioDir = s.gpioDir := rfl
@[simp] theorem raise_sw (r : FaultReason) (s : State) : (raise r s).sw = s.sw := rfl
@[simp] theorem raise_p (r : FaultReason) (s : State) : (raise r s).p = s.p := rfl
@[simp] theorem raise_fault (r : FaultReason) (s : State) : (raise r s).fault = some (s.fault.getD r) := rfl
@[simp] theorem raise_seqNo (r : FaultReason) (s : State) : (raise r s).seqNo = s.seqNo := rfl
@[simp] theorem raise_events (r : FaultReason) (s : State) : (raise r s).events = s.events := rfl
@[simp] theorem raise_cfg (r : FaultReason) (s : State) : (raise r s).cfg = s.cfg := rfl
@[simp] theorem raise_agenda (r : FaultReason) (s : State) : (raise r s).agenda = s.agenda := rfl
@[simp] theorem raise_tick (r : FaultReason) (s : State) : (raise r s).tick = s.tick := rfl
@[simp] theorem raise_draws (r : FaultReason) (s : State) : (raise r s).draws = s.draws := rfl

/-! ### `latchWrite` -/

@[simp] theorem latchWrite_fsm (x : Pattern) (s : State) : (latchWrite x s).fsm = s.fsm := rfl
@[simp] theorem latchWrite_adcMode (x : Pattern) (s : State) : (latchWrite x s).adcMode = s.adcMode := rfl
@[simp] theorem latchWrite_adcBusy (x : Pattern) (s : State) : (latchWrite x s).adcBusy = s.adcBusy := rfl
@[simp] theorem latchWrite_adcRdy (x : Pattern) (s : State) : (latchWrite x s).adcRdy = s.adcRdy := rfl
@[simp] theorem latchWrite_adcMag (x : Pattern) (s : State) : (latchWrite x s).adcMag = s.adcMag := rfl
@[simp] theorem latchWrite_gpioData (x : Pattern) (s : State) : (latchWrite x s).gpioData = x := rfl
@[simp] theorem latchWrite_gpioDir (x : Pattern) (s : State) : (latchWrite x s).gpioDir = s.gpioDir := rfl
@[simp] theorem latchWrite_sw (x : Pattern) (s : State) : (latchWrite x s).sw = s.sw := rfl
@[simp] theorem latchWrite_p (x : Pattern) (s : State) : (latchWrite x s).p = s.p := rfl
@[simp] theorem latchWrite_fault (x : Pattern) (s : State) : (latchWrite x s).fault = s.fault := rfl
@[simp] theorem latchWrite_seqNo (x : Pattern) (s : State) : (latchWrite x s).seqNo = s.seqNo := rfl
@[simp] theorem latchWrite_events (x : Pattern) (s : State) : (latchWrite x s).events = s.events := rfl
@[simp] theorem latchWrite_cfg (x : Pattern) (s : State) : (latchWrite x s).cfg = s.cfg := rfl
@[simp] theorem latchWrite_agenda (x : Pattern) (s : State) : (latchWrite x s).agenda = s.agenda := rfl
@[simp] theorem latchWrite_tick (x : Pattern) (s : State) : (latchWrite x s).tick = s.tick := rfl
@[simp] theorem latchWrite_draws (x : Pattern) (s : State) : (latchWrite x s).draws = s.draws := rfl

/-! ### `adcTriggerSingle` -/

@[simp] theorem adcTriggerSingle_fsm (s : State) : (adcTriggerSingle s).fsm = s.fsm := rfl
@[simp] theorem adcTriggerSingle_adcBusy (s : State) : (adcTriggerSingle s).adcBusy = ⟨true, true⟩ := rfl
@[simp] theorem adcTriggerSingle_adcRdy (s : State) : (adcTriggerSingle s).adcRdy = s.adcRdy := rfl
@[simp] theorem adcTriggerSingle_adcMag (s : State) : (adcTriggerSingle s).adcMag = s.adcMag := rfl
@[simp] theorem adcTriggerSingle_gpioData (s : State) : (adcTriggerSingle s).gpioData = s.gpioData := rfl
@[simp] theorem adcTriggerSingle_gpioDir (s : State) : (adcTriggerSingle s).gpioDir = s.gpioDir := rfl
@[simp] theorem adcTriggerSingle_sw (s : State) : (adcTriggerSingle s).sw = s.sw := rfl
@[simp] theorem adcTriggerSingle_p (s : State) : (adcTriggerSingle s).p = s.p := rfl
@[simp] theorem adcTriggerSingle_fault (s : State) : (adcTriggerSingle s).fault = s.fault := rfl
@[simp] theorem adcTriggerSingle_seqNo (s : State) : (adcTriggerSingle s).seqNo = s.seqNo := rfl
@[simp] theorem adcTriggerSingle_events (s : State) : (adcTriggerSingle s).events = s.events := rfl
@[simp] theorem adcTriggerSingle_cfg (s : State) : (adcTriggerSingle s).cfg = s.cfg := rfl
@[simp] theorem adcTriggerSingle_agenda (s : State) : (adcTriggerSingle s).agenda = s.agenda := rfl
@[simp] theorem adcTriggerSingle_tick (s : State) : (adcTriggerSingle s).tick = s.tick := rfl
@[simp] theorem adcTriggerSingle_draws (s : State) : (adcTriggerSingle s).draws = s.draws := rfl

/-! ### `adcEnableContinuous` -/

@[simp] theorem adcEnableContinuous_fsm (s : State) : (adcEnableContinuous s).fsm = s.fsm := rfl
@[simp] theorem adcEnableContinuous_adcMode (s : State) : (adcEnableContinuous s).adcMode = .cont := rfl
@[simp] theorem adcEnableContinuous_adcBusy (s : State) : (adcEnableContinuous s).adcBusy = ⟨true, true⟩ := rfl
@[simp] theorem adcEnableContinuous_adcRdy (s : State) : (adcEnableContinuous s).adcRdy = s.adcRdy := rfl
@[simp] theorem adcEnableContinuous_adcMag (s : State) : (adcEnableContinuous s).adcMag = s.adcMag := rfl
@[simp] theorem adcEnableContinuous_gpioData (s : State) : (adcEnableContinuous s).gpioData = s.gpioData := rfl
@[simp] theorem adcEnableContinuous_gpioDir (s : State) : (adcEnableContinuous s).gpioDir = s.gpioDir := rfl
@[simp] theorem adcEnableContinuous_sw (s : State) : (adcEnableContinuous s).sw = s.sw := rfl
@[simp] theorem adcEnableContinuous_p (s : State) : (adcEnableContinuous s).p = s.p := rfl
@[simp] theorem adcEnableContinuous_fault (s : State) : (adcEnableContinuous s).fault = s.fault := rfl
@[simp] theorem adcEnableContinuous_seqNo (s : State) : (adcEnableContinuous s).seqNo = s.seqNo := rfl
@[simp] theorem adcEnableContinuous_events (s : State) : (adcEnableContinuous s).events = s.events := rfl
@[simp] theorem adcEnableContinuous_cfg (s : State) : (adcEnableContinuous s).cfg = s.cfg := rfl
@[simp] theorem adcEnableContinuous_agenda (s : State) : (adcEnableContinuous s).agenda = s.agenda := rfl
@[simp] theorem adcEnableContinuous_tick (s : State) : (adcEnableContinuous s).tick = s.tick := rfl
@[simp] theorem adcEnableContinuous_draws (s : State) : (adcEnableContinuous s).draws = s.draws := rfl

/-! ### `adcComplete` -/

@[simp] theorem adcComplete_fsm (n : Channel) (v : Magnitude) (s : State) : (adcComplete n v s).fsm = s.fsm := rfl
@[simp] theorem adcComplete_adcMode (n : Channel) (v : Magnitude) (s : State) : (adcComplete n v s).adcMode = s.adcMode := rfl
@[simp] theorem adcComplete_adcBusy (n : Channel) (v : Magnitude) (s : State) : (adcComplete n v s).adcBusy = s.adcBusy.set n (decide (s.adcMode = .cont)) := rfl
@[simp] theorem adcComplete_adcRdy (n : Channel) (v : Magnitude) (s : State) : (adcComplete n v s).adcRdy = s.adcRdy.set n true := rfl
@[simp] theorem adcComplete_adcMag (n : Channel) (v : Magnitude) (s : State) : (adcComplete n v s).adcMag = s.adcMag.set n v := rfl
@[simp] theorem adcComplete_gpioData (n : Channel) (v : Magnitude) (s : State) : (adcComplete n v s).gpioData = s.gpioData := rfl
@[simp] theorem adcComplete_gpioDir (n : Channel) (v : Magnitude) (s : State) : (adcComplete n v s).gpioDir = s.gpioDir := rfl
@[simp] theorem adcComplete_sw (n : Channel) (v : Magnitude) (s : State) : (adcComplete n v s).sw = s.sw := rfl
@[simp] theorem adcComplete_p (n : Channel) (v : Magnitude) (s : State) : (adcComplete n v s).p = s.p := rfl
@[simp] theorem adcComplete_fault (n : Channel) (v : Magnitude) (s : State) : (adcComplete n v s).fault = s.fault := rfl
@[simp] theorem adcComplete_seqNo (n : Channel) (v : Magnitude) (s : State) : (adcComplete n v s).seqNo = s.seqNo := rfl
@[simp] theorem adcComplete_events (n : Channel) (v : Magnitude) (s : State) : (adcComplete n v s).events = s.events := rfl
@[simp] theorem adcComplete_cfg (n : Channel) (v : Magnitude) (s : State) : (adcComplete n v s).cfg = s.cfg := rfl
@[simp] theorem adcComplete_agenda (n : Channel) (v : Magnitude) (s : State) : (adcComplete n v s).agenda = s.agenda := rfl
@[simp] theorem adcComplete_tick (n : Channel) (v : Magnitude) (s : State) : (adcComplete n v s).tick = s.tick := rfl
@[simp] theorem adcComplete_draws (n : Channel) (v : Magnitude) (s : State) : (adcComplete n v s).draws = s.draws := rfl

/-! ### `adcInvalidate` -/

@[simp] theorem adcInvalidate_fsm (n : Channel) (s : State) : (adcInvalidate n s).fsm = s.fsm := rfl
@[simp] theorem adcInvalidate_adcMode (n : Channel) (s : State) : (adcInvalidate n s).adcMode = s.adcMode := rfl
@[simp] theorem adcInvalidate_adcBusy (n : Channel) (s : State) : (adcInvalidate n s).adcBusy = s.adcBusy := rfl
@[simp] theorem adcInvalidate_adcRdy (n : Channel) (s : State) : (adcInvalidate n s).adcRdy = s.adcRdy.set n false := rfl
@[simp] theorem adcInvalidate_adcMag (n : Channel) (s : State) : (adcInvalidate n s).adcMag = s.adcMag := rfl
@[simp] theorem adcInvalidate_gpioData (n : Channel) (s : State) : (adcInvalidate n s).gpioData = s.gpioData := rfl
@[simp] theorem adcInvalidate_gpioDir (n : Channel) (s : State) : (adcInvalidate n s).gpioDir = s.gpioDir := rfl
@[simp] theorem adcInvalidate_sw (n : Channel) (s : State) : (adcInvalidate n s).sw = s.sw := rfl
@[simp] theorem adcInvalidate_p (n : Channel) (s : State) : (adcInvalidate n s).p = s.p := rfl
@[simp] theorem adcInvalidate_fault (n : Channel) (s : State) : (adcInvalidate n s).fault = s.fault := rfl
@[simp] theorem adcInvalidate_seqNo (n : Channel) (s : State) : (adcInvalidate n s).seqNo = s.seqNo := rfl
@[simp] theorem adcInvalidate_events (n : Channel) (s : State) : (adcInvalidate n s).events = s.events := rfl
@[simp] theorem adcInvalidate_cfg (n : Channel) (s : State) : (adcInvalidate n s).cfg = s.cfg := rfl
@[simp] theorem adcInvalidate_agenda (n : Channel) (s : State) : (adcInvalidate n s).agenda = s.agenda := rfl
@[simp] theorem adcInvalidate_tick (n : Channel) (s : State) : (adcInvalidate n s).tick = s.tick := rfl
@[simp] theorem adcInvalidate_draws (n : Channel) (s : State) : (adcInvalidate n s).draws = s.draws := rfl

/-! ### `takeMove` -/

@[simp] theorem takeMove_fsm (s : State) : (takeMove s).fsm = s.fsm := rfl
@[simp] theorem takeMove_adcMode (s : State) : (takeMove s).adcMode = s.adcMode := rfl
@[simp] theorem takeMove_adcBusy (s : State) : (takeMove s).adcBusy = s.adcBusy := rfl
@[simp] theorem takeMove_adcRdy (s : State) : (takeMove s).adcRdy = s.adcRdy := rfl
@[simp] theorem takeMove_adcMag (s : State) : (takeMove s).adcMag = s.adcMag := rfl
@[simp] theorem takeMove_gpioData (s : State) : (takeMove s).gpioData = s.gpioData := rfl
@[simp] theorem takeMove_gpioDir (s : State) : (takeMove s).gpioDir = s.gpioDir := rfl
@[simp] theorem takeMove_sw (s : State) : (takeMove s).sw = s.sw := rfl
@[simp] theorem takeMove_p (s : State) : (takeMove s).p = s.p := rfl
@[simp] theorem takeMove_fault (s : State) : (takeMove s).fault = s.fault := rfl
@[simp] theorem takeMove_seqNo (s : State) : (takeMove s).seqNo = s.seqNo := rfl
@[simp] theorem takeMove_events (s : State) : (takeMove s).events = s.events := rfl
@[simp] theorem takeMove_cfg (s : State) : (takeMove s).cfg = s.cfg := rfl
@[simp] theorem takeMove_agenda (s : State) : (takeMove s).agenda = s.agenda.tail := rfl
@[simp] theorem takeMove_tick (s : State) : (takeMove s).tick = s.tick + 1 := rfl
@[simp] theorem takeMove_draws (s : State) : (takeMove s).draws = s.draws := rfl

/-! ### `choose` -/

@[simp] theorem choose_fsm (m : AgentMove) (s : State) : (choose m s).fsm = s.fsm := rfl
@[simp] theorem choose_adcMode (m : AgentMove) (s : State) : (choose m s).adcMode = s.adcMode := rfl
@[simp] theorem choose_adcBusy (m : AgentMove) (s : State) : (choose m s).adcBusy = s.adcBusy := rfl
@[simp] theorem choose_adcRdy (m : AgentMove) (s : State) : (choose m s).adcRdy = s.adcRdy := rfl
@[simp] theorem choose_adcMag (m : AgentMove) (s : State) : (choose m s).adcMag = s.adcMag := rfl
@[simp] theorem choose_gpioData (m : AgentMove) (s : State) : (choose m s).gpioData = s.gpioData := rfl
@[simp] theorem choose_gpioDir (m : AgentMove) (s : State) : (choose m s).gpioDir = s.gpioDir := rfl
@[simp] theorem choose_sw (m : AgentMove) (s : State) : (choose m s).sw = s.sw := rfl
@[simp] theorem choose_p (m : AgentMove) (s : State) : (choose m s).p = s.p := rfl
@[simp] theorem choose_fault (m : AgentMove) (s : State) : (choose m s).fault = s.fault := rfl
@[simp] theorem choose_seqNo (m : AgentMove) (s : State) : (choose m s).seqNo = s.seqNo := rfl
@[simp] theorem choose_events (m : AgentMove) (s : State) : (choose m s).events = s.events := rfl
@[simp] theorem choose_cfg (m : AgentMove) (s : State) : (choose m s).cfg = s.cfg := rfl
@[simp] theorem choose_agenda (m : AgentMove) (s : State) : (choose m s).agenda = [.agent m] := rfl
@[simp] theorem choose_tick (m : AgentMove) (s : State) : (choose m s).tick = s.tick := rfl
@[simp] theorem choose_draws (m : AgentMove) (s : State) : (choose m s).draws = s.draws := rfl

/-! ### `resetWith` (spec/10_state.md R34) -/

@[simp] theorem resetWith_fsm (c : Cfg) (d : ResetDraws) : (State.resetWith c d).fsm = Code.initDir := rfl
@[simp] theorem resetWith_adcMode (c : Cfg) (d : ResetDraws) : (State.resetWith c d).adcMode = .off := rfl
@[simp] theorem resetWith_adcBusy (c : Cfg) (d : ResetDraws) : (State.resetWith c d).adcBusy = ⟨false, false⟩ := rfl
@[simp] theorem resetWith_adcRdy (c : Cfg) (d : ResetDraws) : (State.resetWith c d).adcRdy = ⟨false, false⟩ := rfl
@[simp] theorem resetWith_adcMag (c : Cfg) (d : ResetDraws) : (State.resetWith c d).adcMag = d.mag := rfl
@[simp] theorem resetWith_gpioData (c : Cfg) (d : ResetDraws) : (State.resetWith c d).gpioData = c.gpioDataReset := rfl
@[simp] theorem resetWith_gpioDir (c : Cfg) (d : ResetDraws) : (State.resetWith c d).gpioDir = 0#10 := rfl
@[simp] theorem resetWith_sw (c : Cfg) (d : ResetDraws) : (State.resetWith c d).sw = d.sw := rfl
@[simp] theorem resetWith_p (c : Cfg) (d : ResetDraws) : (State.resetWith c d).p = Pipeline.empty := rfl
@[simp] theorem resetWith_fault (c : Cfg) (d : ResetDraws) : (State.resetWith c d).fault = none := rfl
@[simp] theorem resetWith_seqNo (c : Cfg) (d : ResetDraws) : (State.resetWith c d).seqNo = 0 := rfl
@[simp] theorem resetWith_events (c : Cfg) (d : ResetDraws) : (State.resetWith c d).events = [] := rfl
@[simp] theorem resetWith_cfg (c : Cfg) (d : ResetDraws) : (State.resetWith c d).cfg = c := rfl
@[simp] theorem resetWith_agenda (c : Cfg) (d : ResetDraws) : (State.resetWith c d).agenda = [] := rfl
@[simp] theorem resetWith_tick (c : Cfg) (d : ResetDraws) : (State.resetWith c d).tick = 0 := rfl
@[simp] theorem resetWith_draws (c : Cfg) (d : ResetDraws) : (State.resetWith c d).draws = 0 := rfl

/-! ### `restart` (spec/70_reset_and_hazards.md R252) -/

@[simp] theorem restart_fsm (c : Cfg) (d : ResetDraws) (s : State) : (restart c d s).fsm = Code.initDir := rfl
@[simp] theorem restart_adcMode (c : Cfg) (d : ResetDraws) (s : State) : (restart c d s).adcMode = .off := rfl
@[simp] theorem restart_adcBusy (c : Cfg) (d : ResetDraws) (s : State) : (restart c d s).adcBusy = ⟨false, false⟩ := rfl
@[simp] theorem restart_adcRdy (c : Cfg) (d : ResetDraws) (s : State) : (restart c d s).adcRdy = ⟨false, false⟩ := rfl
@[simp] theorem restart_adcMag (c : Cfg) (d : ResetDraws) (s : State) : (restart c d s).adcMag = d.mag := rfl
@[simp] theorem restart_gpioData (c : Cfg) (d : ResetDraws) (s : State) : (restart c d s).gpioData = c.gpioDataReset := rfl
@[simp] theorem restart_gpioDir (c : Cfg) (d : ResetDraws) (s : State) : (restart c d s).gpioDir = 0#10 := rfl
@[simp] theorem restart_sw (c : Cfg) (d : ResetDraws) (s : State) : (restart c d s).sw = d.sw := rfl
@[simp] theorem restart_p (c : Cfg) (d : ResetDraws) (s : State) : (restart c d s).p = Pipeline.empty := rfl
@[simp] theorem restart_fault (c : Cfg) (d : ResetDraws) (s : State) : (restart c d s).fault = none := rfl
@[simp] theorem restart_seqNo (c : Cfg) (d : ResetDraws) (s : State) : (restart c d s).seqNo = 0 := rfl
@[simp] theorem restart_events (c : Cfg) (d : ResetDraws) (s : State) : (restart c d s).events = [] := rfl
@[simp] theorem restart_cfg (c : Cfg) (d : ResetDraws) (s : State) : (restart c d s).cfg = c := rfl
@[simp] theorem restart_agenda (c : Cfg) (d : ResetDraws) (s : State) : (restart c d s).agenda = s.agenda := rfl
@[simp] theorem restart_tick (c : Cfg) (d : ResetDraws) (s : State) : (restart c d s).tick = s.tick := rfl
@[simp] theorem restart_draws (c : Cfg) (d : ResetDraws) (s : State) : (restart c d s).draws = s.draws := rfl

/-! ### `adc_mode` after a trigger, and the channels -/

/-- A trigger never leaves `CONT` (spec/41_adc_mux_ready.md R123). -/
theorem adcTriggerSingle_adcMode_cont (s : State) (h : s.adcMode = .cont) :
    (adcTriggerSingle s).adcMode = .cont := by
  simp [adcTriggerSingle, h]

/-- A trigger makes any other mode `SINGLE` (spec/41_adc_mux_ready.md R123). -/
theorem adcTriggerSingle_adcMode_of_ne (s : State) (h : s.adcMode ≠ .cont) :
    (adcTriggerSingle s).adcMode = .single := by
  cases hm : s.adcMode <;> simp_all [adcTriggerSingle]

@[simp] theorem PerChannel.get_set_same {α : Type} (v : PerChannel α) (n : Channel) (x : α) :
    (v.set n x).get n = x := by
  fin_cases n <;> rfl

theorem PerChannel.get_set_of_ne {α : Type} (v : PerChannel α) {n m : Channel} (x : α) (h : m ≠ n) :
    (v.set n x).get m = v.get m := by
  fin_cases n <;> fin_cases m <;> first | rfl | exact absurd rfl h

/-- Two families of channel values are equal when they agree on every channel. -/
theorem PerChannel.ext_get {α : Type} {v w : PerChannel α} (h : ∀ n, v.get n = w.get n) : v = w := by
  have h0 := h 0
  have h1 := h 1
  cases v
  cases w
  simp_all [PerChannel.get]

@[simp] theorem PerChannel.get_pair {α : Type} (x : α) (n : Channel) :
    (PerChannel.mk x x).get n = x := by
  fin_cases n <;> rfl

/-! ### `regWrite` -/

@[simp] theorem regWrite_gpioData (w : Word) (s : State) :
    regWrite .gpioData w s = latchWrite (indicatorBits w) s := rfl
@[simp] theorem regWrite_switchInput (w : Word) (s : State) : regWrite .switchInput w s = s := rfl

@[simp] theorem regWrite_fsm (r : Reg) (w : Word) (s : State) : (regWrite r w s).fsm = s.fsm := by
  unfold regWrite; split <;> (try split) <;> (try split) <;> rfl
@[simp] theorem regWrite_adcRdy (r : Reg) (w : Word) (s : State) : (regWrite r w s).adcRdy = s.adcRdy := by
  unfold regWrite; split <;> (try split) <;> (try split) <;> rfl
@[simp] theorem regWrite_adcMag (r : Reg) (w : Word) (s : State) : (regWrite r w s).adcMag = s.adcMag := by
  unfold regWrite; split <;> (try split) <;> (try split) <;> rfl
@[simp] theorem regWrite_sw (r : Reg) (w : Word) (s : State) : (regWrite r w s).sw = s.sw := by
  unfold regWrite; split <;> (try split) <;> (try split) <;> rfl
@[simp] theorem regWrite_p (r : Reg) (w : Word) (s : State) : (regWrite r w s).p = s.p := by
  unfold regWrite; split <;> (try split) <;> (try split) <;> rfl
@[simp] theorem regWrite_fault (r : Reg) (w : Word) (s : State) : (regWrite r w s).fault = s.fault := by
  unfold regWrite; split <;> (try split) <;> (try split) <;> rfl
@[simp] theorem regWrite_seqNo (r : Reg) (w : Word) (s : State) : (regWrite r w s).seqNo = s.seqNo := by
  unfold regWrite; split <;> (try split) <;> (try split) <;> rfl
@[simp] theorem regWrite_events (r : Reg) (w : Word) (s : State) : (regWrite r w s).events = s.events := by
  unfold regWrite; split <;> (try split) <;> (try split) <;> rfl
@[simp] theorem regWrite_cfg (r : Reg) (w : Word) (s : State) : (regWrite r w s).cfg = s.cfg := by
  unfold regWrite; split <;> (try split) <;> (try split) <;> rfl
@[simp] theorem regWrite_agenda (r : Reg) (w : Word) (s : State) : (regWrite r w s).agenda = s.agenda := by
  unfold regWrite; split <;> (try split) <;> (try split) <;> rfl
@[simp] theorem regWrite_tick (r : Reg) (w : Word) (s : State) : (regWrite r w s).tick = s.tick := by
  unfold regWrite; split <;> (try split) <;> (try split) <;> rfl
@[simp] theorem regWrite_draws (r : Reg) (w : Word) (s : State) : (regWrite r w s).draws = s.draws := by
  unfold regWrite; split <;> (try split) <;> (try split) <;> rfl

end Sys2Proof.Machine
end

