-- ==== Sys2Proof/Laws/Ops.lean ====
section
/-! SUPPORT. For each shared operation, what it can do, said once. -/

namespace Sys2Proof.Machine

/-! ### Running an action -/

/-- A recorded fault stops every action (spec/60_exceptions.md R232). -/
theorem runAction_of_fault {act : State → Except FaultReason State} {s : State} {r : FaultReason}
    (h : s.fault = some r) : runAction act s = .fault (.stopped r) := by
  simp [runAction, h]

theorem runAction_of_ok {act : State → Except FaultReason State} {s t : State} (h : s.fault = none)
    (ha : act s = .ok t) : runAction act s = .next t := by
  simp [runAction, h, ha]

theorem runAction_of_error {act : State → Except FaultReason State} {s : State} {r : FaultReason}
    (h : s.fault = none) (ha : act s = .error r) : runAction act s = .next { s with fault := some r } := by
  simp [runAction, h, ha, raise]

/-- All that an action which answers a next state can have done. -/
theorem runAction_next_cases {act : State → Except FaultReason State} {s t : State}
    (h : runAction act s = .next t) :
    s.fault = none ∧ (act s = .ok t ∨ ∃ r, act s = .error r ∧ t = { s with fault := some r }) := by
  unfold runAction at h
  split at h
  · cases h
  · rename_i hf
    refine ⟨hf, ?_⟩
    split at h
    · rename_i u hu
      cases h
      exact .inl hu
    · rename_i r hr
      cases h
      exact .inr ⟨r, hr, by simp [raise, hf]⟩

/-- An action never refuses. -/
theorem runAction_not_refused (act : State → Except FaultReason State) (s : State) (r : Refusal) :
    runAction act s ≠ .refused r := by
  unfold runAction
  split
  · nofun
  · split <;> nofun

/-- An action stops only where a fault is recorded. -/
theorem runAction_fault_iff (act : State → Except FaultReason State) (s : State) (f : Fault) :
    runAction act s = .fault f ↔ ∃ r, s.fault = some r ∧ f = .stopped r := by
  unfold runAction
  split
  · rename_i r hr
    constructor
    · rintro ⟨⟩
      exact ⟨r, hr, rfl⟩
    · rintro ⟨r', hr', rfl⟩
      simp_all
  · rename_i hn
    constructor
    · intro h
      split at h <;> cases h
    · rintro ⟨r, hr, -⟩
      simp_all

@[simp] theorem readPipe_some {α : Type} (name : PipeReg) (v : α) : readPipe name (some v) = .ok v := rfl
@[simp] theorem readPipe_none {α : Type} (name : PipeReg) :
    readPipe name (none : Option α) = .error (.unwritten name) := rfl

theorem readPipe_eq_ok_iff {α : Type} {name : PipeReg} {r : Option α} {v : α} :
    readPipe name r = .ok v ↔ r = some v := by
  cases r <;> simp [readPipe]

/-! ### A valid configuration -/

/-- What validity says of a ready mask (spec/00_scope.md R8). -/
theorem readyMaskValid_iff {m : Word} :
    readyMaskValid m = true ↔ ∃ k, 12 ≤ k ∧ k < 32 ∧ m = BitVec.twoPow 32 k := by
  simp only [readyMaskValid, List.any_eq_true, List.mem_range'_1, beq_iff_eq]
  constructor
  · rintro ⟨k, ⟨h1, h2⟩, h3⟩
    exact ⟨k, h1, h2, h3⟩
  · rintro ⟨k, h1, h2, h3⟩
    exact ⟨k, ⟨h1, h2⟩, h3⟩

theorem readyMaskValid_and_magMask {m : Word} (h : readyMaskValid m = true) : m &&& Config.magMask = 0#32 := by
  simp only [readyMaskValid, List.any_eq_true, beq_iff_eq] at h
  obtain ⟨k, hk, rfl⟩ := h
  revert k
  decide

theorem readyMaskValid_ne_zero {m : Word} (h : readyMaskValid m = true) : m ≠ 0#32 := by
  simp only [readyMaskValid, List.any_eq_true, beq_iff_eq] at h
  obtain ⟨k, hk, rfl⟩ := h
  revert k
  decide

/-- Two different valid masks have no bit in common. -/
theorem readyMaskValid_disjoint {m n : Word} (hm : readyMaskValid m = true) (hn : readyMaskValid n = true)
    (h : m ≠ n) : m &&& n = 0#32 := by
  simp only [readyMaskValid, List.any_eq_true, beq_iff_eq] at hm hn
  obtain ⟨k, hk, rfl⟩ := hm
  obtain ⟨l, hl, rfl⟩ := hn
  revert k l
  decide

/-- Validity of a configuration, taken apart (spec/00_scope.md R8, spec/20_memory.md R51). -/
theorem cfgValid_iff {c : Cfg} : cfgValid c = true ↔
    readyMaskValid c.adcReadyMask = true ∧ readyMaskValid c.readyMask = true ∧
    windowValid c.adcBase 8 = true ∧ windowValid c.gpioBase 8 = true ∧ windowValid c.switchBase 4 = true ∧
    windowsDisjoint c.adcBase 8 c.gpioBase 8 = true ∧ windowsDisjoint c.adcBase 8 c.switchBase 4 = true ∧
    windowsDisjoint c.gpioBase 8 c.switchBase 4 = true ∧ 1 ≤ c.paceDelay ∧
    c.triggerValue ≠ 0#32 ∧ c.velCh ≠ c.angCh := by
  simp only [cfgValid, Bool.and_eq_true, decide_eq_true_eq, bne_iff_ne, and_assoc]

theorem windowValid_aligned {base : Word} {size : Nat} (h : windowValid base size = true) :
    base.toNat % 4 = 0 := by
  simp only [windowValid, Bool.and_eq_true, beq_iff_eq] at h
  exact h.1

theorem regionBase_aligned {c : Cfg} (h : cfgValid c = true) {rgn : BitVec 2} {base : Word}
    (hb : regionBase c rgn = some base) : base.toNat % 4 = 0 := by
  obtain ⟨-, -, ha, hg, hs, -⟩ := cfgValid_iff.1 h
  unfold regionBase at hb
  split at hb
  · cases hb
    exact windowValid_aligned ha
  · split at hb
    · cases hb
      exact windowValid_aligned hg
    · split at hb
      · cases hb
        exact windowValid_aligned hs
      · cases hb

/-- Under a valid configuration the prologue rejects no descriptor (spec/44_sequencer.md R216). -/
theorem descriptorAccess_supported {c : Cfg} (h : cfgValid c = true) (d : Descriptor) :
    (descriptorAccess c d).unsupported = false := by
  unfold Access.unsupported descriptorAccess descriptorAddr
  cases hb : regionBase c (descriptorRegion d) with
  | none => rfl
  | some base =>
    simp [regionBase_aligned h hb]

/-! ### The accesses -/

/-- The word `BusRead` returns (spec/40_bus_access.md R110). -/
def readWord (reg : Reg) (s : State) : Word := regValue s reg (Config.draw s.draws)

/-- The state after a `BusRead`: a drawn value is used up and the event is recorded. -/
def afterRead (reg : Reg) (s : State) : State :=
  record .rd reg (readWord reg s) { s with draws := s.draws + 1 }

@[simp] theorem afterRead_fsm (reg : Reg) (s : State) : (afterRead reg s).fsm = s.fsm := rfl
@[simp] theorem afterRead_adcMode (reg : Reg) (s : State) : (afterRead reg s).adcMode = s.adcMode := rfl
@[simp] theorem afterRead_adcBusy (reg : Reg) (s : State) : (afterRead reg s).adcBusy = s.adcBusy := rfl
@[simp] theorem afterRead_adcRdy (reg : Reg) (s : State) : (afterRead reg s).adcRdy = s.adcRdy := rfl
@[simp] theorem afterRead_adcMag (reg : Reg) (s : State) : (afterRead reg s).adcMag = s.adcMag := rfl
@[simp] theorem afterRead_gpioData (reg : Reg) (s : State) : (afterRead reg s).gpioData = s.gpioData := rfl
@[simp] theorem afterRead_gpioDir (reg : Reg) (s : State) : (afterRead reg s).gpioDir = s.gpioDir := rfl
@[simp] theorem afterRead_sw (reg : Reg) (s : State) : (afterRead reg s).sw = s.sw := rfl
@[simp] theorem afterRead_p (reg : Reg) (s : State) : (afterRead reg s).p = s.p := rfl
@[simp] theorem afterRead_fault (reg : Reg) (s : State) : (afterRead reg s).fault = s.fault := rfl
@[simp] theorem afterRead_seqNo (reg : Reg) (s : State) : (afterRead reg s).seqNo = s.seqNo + 1 := rfl
@[simp] theorem afterRead_events (reg : Reg) (s : State) :
    (afterRead reg s).events = s.events ++ [⟨s.seqNo, .rd, reg, readWord reg s⟩] := rfl
@[simp] theorem afterRead_cfg (reg : Reg) (s : State) : (afterRead reg s).cfg = s.cfg := rfl
@[simp] theorem afterRead_agenda (reg : Reg) (s : State) : (afterRead reg s).agenda = s.agenda := rfl
@[simp] theorem afterRead_tick (reg : Reg) (s : State) : (afterRead reg s).tick = s.tick := rfl
@[simp] theorem afterRead_draws (reg : Reg) (s : State) : (afterRead reg s).draws = s.draws + 1 := rfl

/-- The state after a `BusWrite`. -/
def afterWrite (reg : Reg) (w : Word) (s : State) : State := record .wr reg w (regWrite reg w s)

theorem performRead_eq_ok_iff {a : Access} {reg : Reg} {s t : State} {w : Word} :
    performRead a reg s = .ok (w, t) ↔ a.unsupported = false ∧ w = readWord reg s ∧ t = afterRead reg s := by
  unfold performRead
  cases a.unsupported
  · simp only [Bool.false_eq_true, if_false, Except.ok.injEq, Prod.mk.injEq, true_and]
    exact ⟨fun h => ⟨h.1.symm, h.2.symm⟩, fun h => ⟨h.1.symm, h.2.symm⟩⟩
  · simp

theorem performWrite_eq_ok_iff {a : Access} {reg : Reg} {w : Word} {s t : State} :
    performWrite a reg w s = .ok t ↔ a.unsupported = false ∧ t = afterWrite reg w s := by
  unfold performWrite
  cases a.unsupported
  · simp only [Bool.false_eq_true, if_false, Except.ok.injEq, true_and]
    exact ⟨fun h => h.symm, fun h => h.symm⟩
  · simp

theorem busRead_of_valid {s : State} (h : cfgValid s.cfg = true) (d : Descriptor) (reg : Reg) :
    busRead d reg s = .ok (readWord reg s, afterRead reg s) :=
  performRead_eq_ok_iff.2 ⟨descriptorAccess_supported h d, rfl, rfl⟩

theorem busReadOnly_of_valid {s : State} (h : cfgValid s.cfg = true) (d : Descriptor) (reg : Reg) :
    busReadOnly d reg s = .ok (afterRead reg s) := by
  simp [busReadOnly, busRead_of_valid h]

theorem busWrite_of_valid {s : State} (h : cfgValid s.cfg = true) (d : Descriptor) (reg : Reg) (w : Word) :
    busWrite d reg w s = .ok (afterWrite reg w s) :=
  performWrite_eq_ok_iff.2 ⟨descriptorAccess_supported h d, rfl⟩

theorem unmappedAccess_of_valid {c : Cfg} (h : cfgValid c = true) (d : Descriptor) :
    unmappedAccess (descriptorAccess c d) = .unmapped (some d) (descriptorAddr c d) := by
  rw [unmappedAccess, descriptorAccess_supported h d]
  rfl

/-- `AdcTriggerSingle` or `AdcEnableContinuous`, whichever a nonzero write to channel `n` is. -/
theorem regWrite_adc_of_ne_zero {w : Word} (h : w ≠ 0#32) (n : Channel) (s : State) :
    regWrite (.adcChannel n) w s = if n = 0 then adcTriggerSingle s else adcEnableContinuous s := by
  simp [regWrite, h]

@[simp] theorem regWrite_adc_zero (n : Channel) (s : State) : regWrite (.adcChannel n) 0#32 s = s := by
  simp [regWrite]

/-! ### The words that reads return -/

@[simp] theorem magMask_getLsbD (i : Nat) : Config.magMask.getLsbD i = decide (i < 12) := by
  by_cases h : i < 32
  · have : ∀ j : Fin 32, Config.magMask.getLsbD j.val = decide (j.val < 12) := by decide
    exact this ⟨i, h⟩
  · rw [BitVec.getLsbD_of_ge _ _ (by omega)]
    simp
    omega

/-- No bit of a valid ready mask is a magnitude bit (spec/00_scope.md R8). -/
theorem readyMaskValid_getLsbD {m : Word} (h : readyMaskValid m = true) {i : Nat}
    (hi : m.getLsbD i = true) : 12 ≤ i := by
  have := congrArg (fun v : Word => v.getLsbD i) (readyMaskValid_and_magMask h)
  simp only [BitVec.getLsbD_and, hi, magMask_getLsbD, Bool.true_and, BitVec.getLsbD_zero,
    decide_eq_false_iff_not] at this
  omega

/-- Bit `i` of a RawSample (spec/40_bus_access.md R100). -/
theorem sampleWord_getLsbD (c : Cfg) (rdy : Bool) (m : Magnitude) (drawn : Word) {i : Nat} (hi : i < 32) :
    (sampleWord c rdy m drawn).getLsbD i =
      (drawn.getLsbD i && !(c.adcReadyMask.getLsbD i || decide (i < 12)) ||
        (rdy && c.adcReadyMask.getLsbD i) ||
        if rdy then m.getLsbD i else drawn.getLsbD i && decide (i < 12)) := by
  cases rdy <;>
    simp only [sampleWord, readyField, BitVec.getLsbD_or, BitVec.getLsbD_and, BitVec.getLsbD_not,
      BitVec.getLsbD_setWidth, magMask_getLsbD, hi, decide_true, Bool.true_and, Bool.false_and,
      BitVec.getLsbD_zero, if_true, Bool.false_eq_true, if_false]

/-- The READY bit of a RawSample is the flag (spec/40_bus_access.md R100). -/
theorem sampleWord_and_readyMask {c : Cfg} (h : readyMaskValid c.adcReadyMask = true) (rdy : Bool)
    (m : Magnitude) (drawn : Word) :
    sampleWord c rdy m drawn &&& c.adcReadyMask = readyField c rdy := by
  apply BitVec.eq_of_getLsbD_eq
  intro i hi
  rw [BitVec.getLsbD_and, sampleWord_getLsbD c rdy m drawn hi]
  cases hr : c.adcReadyMask.getLsbD i
  · cases rdy <;> simp [readyField, hr]
  · have h12 := readyMaskValid_getLsbD h hr
    have hlt : ¬ i < 12 := by omega
    cases rdy <;> simp [readyField, hr, hlt]

/-- The magnitude of a ready RawSample is the channel's (spec/40_bus_access.md R100). -/
theorem mag_sampleWord_ready {c : Cfg} (h : readyMaskValid c.adcReadyMask = true) (m : Magnitude)
    (drawn : Word) : mag (sampleWord c true m drawn) = m := by
  apply BitVec.eq_of_getLsbD_eq
  intro i hi
  have hr : c.adcReadyMask.getLsbD i = false := by
    by_contra hne
    have := readyMaskValid_getLsbD h (by simpa using hne)
    omega
  rw [mag, BitVec.getLsbD_setWidth, BitVec.getLsbD_and, sampleWord_getLsbD c true m drawn (by omega)]
  simp [hr, hi]

/-- A bit that is neither the READY bit nor a magnitude bit is drawn (spec/40_bus_access.md R100). -/
theorem sampleWord_and_of_disjoint {c : Cfg} {k : Word} (hk : k &&& Config.magMask = 0#32)
    (hr : k &&& c.adcReadyMask = 0#32) (rdy : Bool) (m : Magnitude) (drawn : Word) :
    sampleWord c rdy m drawn &&& k = drawn &&& k := by
  apply BitVec.eq_of_getLsbD_eq
  intro i hi
  have h1 := congrArg (fun v : Word => v.getLsbD i) hk
  have h2 := congrArg (fun v : Word => v.getLsbD i) hr
  simp only [BitVec.getLsbD_and, magMask_getLsbD, BitVec.getLsbD_zero] at h1 h2
  rw [BitVec.getLsbD_and, BitVec.getLsbD_and, sampleWord_getLsbD c rdy m drawn hi]
  cases hki : k.getLsbD i
  · simp
  · simp only [hki, Bool.true_and, decide_eq_false_iff_not] at h1 h2
    cases rdy <;> simp [h1, h2, BitVec.getLsbD_of_ge m i (by omega)]

/-- The detector of a platform whose masks agree answers the flag (spec/41_adc_mux_ready.md R131). -/
theorem readyOk_sampleWord {c : Cfg} (h : readyMaskValid c.adcReadyMask = true)
    (heq : c.readyMask = c.adcReadyMask) (rdy : Bool) (m : Magnitude) (drawn : Word) :
    readyOk c (sampleWord c rdy m drawn) = rdy := by
  rw [readyOk, heq, sampleWord_and_readyMask h]
  cases rdy <;> simp [readyField, readyMaskValid_ne_zero h]

/-- Bit 0 of a switch word is the pin (spec/40_bus_access.md R107). -/
theorem muxSel_switchWord (sw : Bool) (drawn : Word) : muxSel (switchWord sw drawn) = channelOfBit sw := by
  cases sw <;> simp [muxSel, switchWord]

/-! ### The step -/

/-- The next step runs the operation that its move names. -/
theorem makeMove_of_fetched {m : Move} {s : State} {i : Instr} (h : cfgValid s.cfg = true)
    (hf : fetched m s = some i) : makeMove m s = exec i s := by
  cases m with
  | agent a =>
    cases a with
    | seq =>
      cases hf
      simp [makeMove, guardCfg, h, agentMove]
    | complete n v => cases hf
    | invalidate n => cases hf
    | setSwitch b => cases hf
  | transfer d w =>
    cases hf
    simp [makeMove, guardCfg, h]
  | request r => cases hf
  | reset c d => cases hf

/-- `choose m` makes `m` the next move and leaves nothing else asked for. -/
theorem step_choose {s : State} (h : cfgValid s.cfg = true) (m : AgentMove) :
    step (choose m s) = agentMove m { s with agenda := [], tick := s.tick + 1 } := by
  simp only [step, nextMove, choose, makeMove, guardCfg, takeMove, h, List.tail_cons, if_true]

theorem guardCfg_eq_next_iff {c : Cfg} {o : Host.Outcome State Fault Refusal} {t : State} :
    guardCfg c o = .next t ↔ cfgValid c = true ∧ o = .next t := by
  unfold guardCfg
  split <;> simp_all

/-- All that a step which answers a next state can have done. -/
theorem step_next_cases {s t : State} (h : step s = .next t) :
    (∃ a, nextMove s = .agent a ∧ cfgValid s.cfg = true ∧ agentMove a (takeMove s) = .next t) ∨
    (∃ d w, nextMove s = .transfer d w ∧ cfgValid s.cfg = true ∧
      exec (decodeTransfer d w) (takeMove s) = .next t) ∨
    (∃ r, nextMove s = .request r ∧ cfgValid s.cfg = true ∧ runAction (rawRequest r) (takeMove s) = .next t) ∨
    (∃ c d, nextMove s = .reset c d ∧ cfgValid c = true ∧ t = restart c d (takeMove s)) := by
  cases hm : nextMove s <;>
    simp only [step, hm, makeMove, guardCfg_eq_next_iff, takeMove_cfg, Host.Outcome.next.injEq] at h
  · exact .inl ⟨_, rfl, h⟩
  · exact .inr (.inl ⟨_, _, rfl, h⟩)
  · exact .inr (.inr (.inl ⟨_, rfl, h⟩))
  · exact .inr (.inr (.inr ⟨_, _, rfl, h.1, h.2.symm⟩))

end Sys2Proof.Machine
end

