-- ==== Sys2Proof/Laws/Exec.lean ====
section
/-! SUPPORT. The meaning behind each arm of `exec` and each agent's move, what an access leaves of the
state, and what any operation or step can do to the devices and the event history, said once. -/

namespace Sys2Proof.Machine

/-! ### The arms -/

theorem exec_rdAdc (n : Channel) (s : State) :
    exec (.rdAdc n) s = runAction (busReadOnly (rdAdcDescriptor n) (.adcChannel n)) s := rfl
theorem exec_wrAdc0 (w : Word) (s : State) :
    exec (.wrAdc0 w) s = runAction (busWrite 0x80#8 (.adcChannel 0) w) s := rfl
theorem exec_wrAdc1 (w : Word) (s : State) :
    exec (.wrAdc1 w) s = runAction (busWrite 0x81#8 (.adcChannel 1) w) s := rfl
theorem exec_rdGpioData (s : State) : exec .rdGpioData s = runAction (busReadOnly 0x20#8 .gpioData) s := rfl
theorem exec_wrGpioData (w : Word) (s : State) :
    exec (.wrGpioData w) s = runAction (busWrite 0xA0#8 .gpioData w) s := rfl
theorem exec_rdGpioDir (s : State) : exec .rdGpioDir s = runAction (busReadOnly 0x21#8 .gpioDir) s := rfl
theorem exec_wrGpioDir (w : Word) (s : State) :
    exec (.wrGpioDir w) s = runAction (busWrite 0xA1#8 .gpioDir w) s := rfl
theorem exec_rdSwitch (s : State) : exec .rdSwitch s = runAction (busReadOnly 0x40#8 .switchInput) s := rfl
theorem exec_wrSwitch (w : Word) (s : State) :
    exec (.wrSwitch w) s = runAction (busWrite 0xC0#8 .switchInput w) s := rfl
theorem exec_unmapped (d : Descriptor) (w : Word) (s : State) :
    exec (.unmapped d w) s = runAction (actUnmapped d) s := rfl
theorem exec_initDir (s : State) : exec .initDir s = runAction actInitDir s := rfl
theorem exec_initArm0 (s : State) : exec .initArm0 s = runAction actInitArm0 s := rfl
theorem exec_initArm1 (s : State) : exec .initArm1 s = runAction actInitArm1 s := rfl
theorem exec_pollSel (s : State) : exec .pollSel s = runAction actPollSel s := rfl
theorem exec_pollA (s : State) : exec .pollA s = runAction actPollA s := rfl
theorem exec_pollB (s : State) : exec .pollB s = runAction actPollB s := rfl
theorem exec_ready (s : State) : exec .ready s = runAction actReady s := rfl
theorem exec_notReady (s : State) : exec .notReady s = runAction actNotReady s := rfl
theorem exec_convertState (s : State) : exec .convertState s = runAction actConvert s := rfl
theorem exec_decideState (s : State) : exec .decideState s = runAction actDecide s := rfl
theorem exec_actuate (s : State) : exec .actuate s = runAction actActuate s := rfl
theorem exec_pace (s : State) : exec .pace s = runAction actPace s := rfl
theorem exec_reservedState (c : StateCode) (s : State) :
    exec (.reservedState c) s = runAction actReservedState s := rfl

theorem agentMove_seq (s : State) : agentMove .seq s = exec (decodeState s.fsm) s := rfl
theorem agentMove_complete (n : Channel) (v : Magnitude) (s : State) :
    agentMove (.complete n v) s = runAction (offerComplete n v) s := rfl
theorem agentMove_invalidate (n : Channel) (s : State) :
    agentMove (.invalidate n) s = runAction (offerInvalidate n) s := rfl
theorem agentMove_setSwitch (b : Bool) (s : State) :
    agentMove (.setSwitch b) s = runAction (setSwitch b) s := rfl

/-! ### What an access leaves -/

theorem busRead_eq_ok {d : Descriptor} {reg : Reg} {s t : State} {w : Word}
    (h : busRead d reg s = .ok (w, t)) : w = readWord reg s ∧ t = afterRead reg s :=
  (performRead_eq_ok_iff.1 h).2

theorem busReadOnly_eq_ok {d : Descriptor} {reg : Reg} {s t : State} (h : busReadOnly d reg s = .ok t) :
    t = afterRead reg s := by
  unfold busReadOnly at h
  split at h
  · rename_i w u hu
    cases h
    exact (busRead_eq_ok hu).2
  · cases h

theorem busWrite_eq_ok {d : Descriptor} {reg : Reg} {w : Word} {s t : State}
    (h : busWrite d reg w s = .ok t) : t = afterWrite reg w s :=
  (performWrite_eq_ok_iff.1 h).2

/-! ### What the sequencer's accesses do under a valid configuration -/

theorem actInitDir_of_valid {s : State} (h : cfgValid s.cfg = true) :
    actInitDir s = .ok (goto Code.initArm0 (afterWrite .gpioDir Config.dirMask s)) := by
  simp only [actInitDir, busWrite_of_valid h]

theorem actInitArm0_of_valid {s : State} (h : cfgValid s.cfg = true) :
    actInitArm0 s = .ok (goto Code.initArm1 (afterWrite (.adcChannel 0) s.cfg.triggerValue s)) := by
  simp only [actInitArm0, busWrite_of_valid h]

theorem actInitArm1_of_valid {s : State} (h : cfgValid s.cfg = true) :
    actInitArm1 s = .ok (startIteration (afterWrite (.adcChannel 1) s.cfg.triggerValue s)) := by
  simp only [actInitArm1, busWrite_of_valid h]

theorem actPollSel_of_valid {s : State} (h : cfgValid s.cfg = true) (hs : s.cfg.strategy = .bucket) :
    actPollSel s = .ok (goto Code.pollA
      { afterRead .switchInput s with
        p := { s.p with
          sel := some (selectorBit (readWord .switchInput s))
          ch := some (muxSel (readWord .switchInput s)) } }) := by
  simp only [actPollSel, hs, busRead_of_valid h]
  rfl

theorem actPollA_of_valid {s : State} {n : Channel} (h : cfgValid s.cfg = true) (hs : s.cfg.strategy = .bucket)
    (hn : s.p.ch = some n) :
    actPollA s = .ok (goto (branchReady (readyOk s.cfg (readWord (.adcChannel n) s)))
      { afterRead (.adcChannel n) s with p := { s.p with sa := some (readWord (.adcChannel n) s) } }) := by
  have hc : pollAChannel s = .ok n := by simp only [pollAChannel, hs, hn, readPipe_some]
  simp only [actPollA, hc, hs, busRead_of_valid h]
  rfl

theorem actPollA_threshold_of_valid {s : State} (h : cfgValid s.cfg = true) (hs : s.cfg.strategy = .threshold) :
    actPollA s = .ok (goto Code.pollB
      { afterRead (.adcChannel s.cfg.velCh) s with
        p := { s.p with sa := some (readWord (.adcChannel s.cfg.velCh) s) } }) := by
  have hc : pollAChannel s = .ok s.cfg.velCh := by simp only [pollAChannel, hs]
  simp only [actPollA, hc, hs, busRead_of_valid h]
  rfl

/-- The state that `POLL_B` reaches with its access (spec/44_sequencer.md R205). -/
def afterPollB (s : State) : State :=
  { afterRead (.adcChannel s.cfg.angCh) s with
    p := { s.p with sb := some (readWord (.adcChannel s.cfg.angCh) s) } }

theorem actPollB_of_valid {s : State} {wa : Word} (h : cfgValid s.cfg = true) (hs : s.cfg.strategy = .threshold)
    (ha : s.p.sa = some wa) :
    actPollB s = .ok (goto (branchReady (bothReady s.cfg wa (readWord (.adcChannel s.cfg.angCh) s)))
      (afterPollB s)) := by
  have hsa : readPipe .sa (afterRead (.adcChannel s.cfg.angCh) s).p.sa = .ok wa := readPipe_eq_ok_iff.2 ha
  simp only [actPollB, hs, busRead_of_valid h, hsa]
  rfl

theorem actPollB_unwritten_of_valid {s : State} (h : cfgValid s.cfg = true) (hs : s.cfg.strategy = .threshold)
    (ha : s.p.sa = none) : actPollB s = .ok (raise (.unwritten .sa) (afterPollB s)) := by
  have hsa : readPipe .sa (afterRead (.adcChannel s.cfg.angCh) s).p.sa = .error (.unwritten .sa) := by
    rw [afterRead_p, ha]
    rfl
  simp only [actPollB, hs, busRead_of_valid h, hsa]
  rfl

/-! ### All that a state's action can have done when it answers -/

theorem actInitDir_eq_ok {s t : State} (h : actInitDir s = .ok t) :
    t = goto Code.initArm0 (afterWrite .gpioDir Config.dirMask s) := by
  unfold actInitDir at h
  split at h
  · rename_i u hu
    cases h
    rw [busWrite_eq_ok hu]
  · cases h

theorem actInitArm0_eq_ok {s t : State} (h : actInitArm0 s = .ok t) :
    t = goto Code.initArm1 (afterWrite (.adcChannel 0) s.cfg.triggerValue s) := by
  unfold actInitArm0 at h
  split at h
  · rename_i u hu
    cases h
    rw [busWrite_eq_ok hu]
  · cases h

theorem actInitArm1_eq_ok {s t : State} (h : actInitArm1 s = .ok t) :
    t = startIteration (afterWrite (.adcChannel 1) s.cfg.triggerValue s) := by
  unfold actInitArm1 at h
  split at h
  · rename_i u hu
    cases h
    rw [busWrite_eq_ok hu]
  · cases h

theorem actPollSel_eq_ok {s t : State} (h : actPollSel s = .ok t) :
    s.cfg.strategy = .bucket ∧
    t = goto Code.pollA
      { afterRead .switchInput s with
        p := { s.p with
          sel := some (selectorBit (readWord .switchInput s))
          ch := some (muxSel (readWord .switchInput s)) } } := by
  unfold actPollSel at h
  split at h
  · cases h
  · rename_i hs
    split at h
    · rename_i w u hu
      cases h
      obtain ⟨rfl, rfl⟩ := busRead_eq_ok hu
      exact ⟨hs, rfl⟩
    · cases h

theorem pollAChannel_eq_ok {s : State} {n : Channel} (h : pollAChannel s = .ok n) :
    (s.cfg.strategy = .bucket ∧ s.p.ch = some n) ∨ (s.cfg.strategy = .threshold ∧ n = s.cfg.velCh) := by
  unfold pollAChannel at h
  split at h
  · rename_i hs
    exact .inl ⟨hs, readPipe_eq_ok_iff.1 h⟩
  · rename_i hs
    cases h
    exact .inr ⟨hs, rfl⟩

theorem actPollA_eq_ok {s t : State} (h : actPollA s = .ok t) :
    (s.cfg.strategy = .bucket ∧ ∃ n, s.p.ch = some n ∧
      t = goto (branchReady (readyOk s.cfg (readWord (.adcChannel n) s)))
        { afterRead (.adcChannel n) s with p := { s.p with sa := some (readWord (.adcChannel n) s) } }) ∨
    (s.cfg.strategy = .threshold ∧
      t = goto Code.pollB
        { afterRead (.adcChannel s.cfg.velCh) s with
          p := { s.p with sa := some (readWord (.adcChannel s.cfg.velCh) s) } }) := by
  unfold actPollA at h
  split at h
  · cases h
  · rename_i n hn
    split at h
    · cases h
    · rename_i w u hu
      obtain ⟨rfl, rfl⟩ := busRead_eq_ok hu
      rcases pollAChannel_eq_ok hn with ⟨hs, hc⟩ | ⟨hs, rfl⟩ <;> simp only [hs] at h <;> cases h
      · exact .inl ⟨hs, n, hc, rfl⟩
      · exact .inr ⟨hs, rfl⟩

theorem actPollB_eq_ok {s t : State} (h : actPollB s = .ok t) :
    s.cfg.strategy = .threshold ∧
    ((∃ wa, s.p.sa = some wa ∧
        t = goto (branchReady (bothReady s.cfg wa (readWord (.adcChannel s.cfg.angCh) s))) (afterPollB s)) ∨
      (s.p.sa = none ∧ t = raise (.unwritten .sa) (afterPollB s))) := by
  unfold actPollB at h
  split at h
  · cases h
  · rename_i hs
    split at h
    · cases h
    · rename_i w u hu
      obtain ⟨rfl, rfl⟩ := busRead_eq_ok hu
      refine ⟨hs, ?_⟩
      cases ha : s.p.sa with
      | none =>
        have hsa : readPipe .sa (afterRead (.adcChannel s.cfg.angCh) s).p.sa = .error (.unwritten .sa) := by
          rw [afterRead_p, ha]
          rfl
        simp only [hsa] at h
        cases h
        exact .inr ⟨rfl, rfl⟩
      | some wa =>
        have hsa : readPipe .sa (afterRead (.adcChannel s.cfg.angCh) s).p.sa = .ok wa := readPipe_eq_ok_iff.2 ha
        simp only [hsa] at h
        cases h
        exact .inl ⟨wa, rfl, rfl⟩

theorem actConvert_eq_ok {s t : State} (h : actConvert s = .ok t) :
    ∃ wa, s.p.sa = some wa ∧
    ((s.cfg.strategy = .bucket ∧ t = goto Code.decide { s with p := { s.p with ma := some (mag wa) } }) ∨
      (s.cfg.strategy = .threshold ∧
        ((∃ wb, s.p.sb = some wb ∧
            t = goto Code.decide
              { s with p := { s.p with
                  ma := some (mag wa)
                  mb := some (mag wb)
                  vel := some (convVel (mag wa))
                  ang := some (convAng (mag wb)) } }) ∨
          (s.p.sb = none ∧
            t = raise (.unwritten .sb) { s with p := { s.p with ma := some (mag wa) } })))) := by
  unfold actConvert at h
  split at h
  · cases h
  · rename_i wa ha
    refine ⟨wa, readPipe_eq_ok_iff.1 ha, ?_⟩
    cases hs : s.cfg.strategy with
    | bucket =>
      simp only [hs] at h
      cases h
      exact .inl ⟨rfl, rfl⟩
    | threshold =>
      refine .inr ⟨rfl, ?_⟩
      cases hb : s.p.sb with
      | none =>
        have hp : readPipe .sb s.p.sb = .error (.unwritten .sb) := by rw [hb, readPipe_none]
        simp only [hs, hp] at h
        cases h
        exact .inr ⟨rfl, rfl⟩
      | some wb =>
        simp only [hs, readPipe_eq_ok_iff.2 hb] at h
        cases h
        exact .inl ⟨wb, rfl, rfl⟩

theorem actDecide_eq_ok {s t : State} (h : actDecide s = .ok t) :
    (s.cfg.strategy = .bucket ∧ ∃ m, s.p.ma = some m ∧
      t = goto Code.actuate { s with p := { s.p with level := some (levelEnc m) } }) ∨
    (s.cfg.strategy = .threshold ∧ ∃ v a, s.p.vel = some v ∧ s.p.ang = some a ∧
      t = goto Code.actuate { s with p := { s.p with stall := some (stallCmp v a) } }) := by
  unfold actDecide at h
  split at h
  · rename_i hs
    split at h
    · cases h
    · rename_i m hm
      cases h
      exact .inl ⟨hs, m, readPipe_eq_ok_iff.1 hm, rfl⟩
  · rename_i hs
    split at h
    · cases h
    · rename_i v hv
      split at h
      · cases h
      · rename_i a ha
        cases h
        exact .inr ⟨hs, v, a, readPipe_eq_ok_iff.1 hv, readPipe_eq_ok_iff.1 ha, rfl⟩

theorem decisionPattern_eq_ok {s : State} {x : Pattern} (h : decisionPattern s = .ok x) :
    (s.cfg.strategy = .bucket ∧ ∃ k, s.p.level = some k ∧ x = barPattern k) ∨
    (s.cfg.strategy = .threshold ∧ ∃ b, s.p.stall = some b ∧ x = stallPattern b) := by
  unfold decisionPattern at h
  split at h <;> rename_i hs <;> split at h
  · cases h
  · rename_i k hk
    cases h
    exact .inl ⟨hs, k, readPipe_eq_ok_iff.1 hk, rfl⟩
  · cases h
  · rename_i b hb
    cases h
    exact .inr ⟨hs, b, readPipe_eq_ok_iff.1 hb, rfl⟩

theorem actActuate_eq_ok {s t : State} (h : actActuate s = .ok t) :
    ∃ x, decisionPattern s = .ok x ∧
    (t = goto Code.pace (afterWrite .gpioData (patternWord x) (setPat x s)) ∨
      ∃ r, busWrite 0xA0#8 .gpioData (patternWord x) (setPat x s) = .error r ∧
        t = raise r (setPat x s)) := by
  unfold actActuate at h
  split at h
  · cases h
  · rename_i x hx
    refine ⟨x, hx, ?_⟩
    split at h
    · rename_i r hr
      cases h
      exact .inr ⟨r, hr, rfl⟩
    · rename_i u hu
      cases h
      exact .inl (by rw [busWrite_eq_ok hu])

/-- Under a valid configuration the write of `ACTUATE` is supported. -/
theorem actActuate_of_valid {s : State} {x : Pattern} (h : cfgValid s.cfg = true) (hx : decisionPattern s = .ok x) :
    actActuate s = .ok (goto Code.pace (afterWrite .gpioData (patternWord x) (setPat x s))) := by
  simp only [actActuate, hx, busWrite_of_valid (s := setPat x s) h]

/-- Where the address of `GPIO_DATA` is misaligned, which only a direct use of `exec` meets, the access of
`ACTUATE` has no effect and `p.pat` stands (log entry 18). -/
theorem actActuate_of_misaligned {s : State} {x : Pattern} (h : s.cfg.gpioBase.toNat % 4 ≠ 0)
    (hx : decisionPattern s = .ok x) :
    actActuate s =
      .ok (raise (.unsupportedAccess (some 0xA0#8) (some s.cfg.gpioBase) 4) (setPat x s)) := by
  have ha : descriptorAccess s.cfg 0xA0#8 = ⟨some 0xA0#8, some s.cfg.gpioBase, 4⟩ := by
    simp [descriptorAccess, descriptorAddr, descriptorRegion, descriptorIndex, regionBase]
  have hu : Access.unsupported ⟨some 0xA0#8, some s.cfg.gpioBase, 4⟩ = true := by simp [Access.unsupported, h]
  have hb : busWrite 0xA0#8 .gpioData (patternWord x) (setPat x s) =
      .error (.unsupportedAccess (some 0xA0#8) (some s.cfg.gpioBase) 4) := by
    simp [busWrite, performWrite, setPat, ha, hu]
  simp only [actActuate, hx, hb]

/-! ### The devices and the history

The state without the sequencer's own `fsm`, pipeline and fault record, and without the draw counter. -/

/-- Two states agree on the devices, the history, the configuration, the agenda and the tick. -/
structure SameDevices (s t : State) : Prop where
  adcMode : t.adcMode = s.adcMode
  adcBusy : t.adcBusy = s.adcBusy
  adcRdy : t.adcRdy = s.adcRdy
  adcMag : t.adcMag = s.adcMag
  gpioData : t.gpioData = s.gpioData
  gpioDir : t.gpioDir = s.gpioDir
  sw : t.sw = s.sw
  seqNo : t.seqNo = s.seqNo
  events : t.events = s.events
  cfg : t.cfg = s.cfg
  agenda : t.agenda = s.agenda
  tick : t.tick = s.tick

theorem SameDevices.refl (s : State) : SameDevices s s := by constructor <;> rfl

/-- All that one operation can do to the devices and the history: nothing, one read, or one write. -/
inductive DeviceEffect (s t : State) : Prop where
  | none (h : SameDevices s t)
  | read (reg : Reg) (h : SameDevices (afterRead reg s) t)
  | write (reg : Reg) (w : Word) (h : SameDevices (afterWrite reg w s) t)

theorem afterRead_effect (reg : Reg) (s : State) : DeviceEffect s (afterRead reg s) := .read reg (.refl _)

theorem afterWrite_effect (reg : Reg) (w : Word) (s : State) : DeviceEffect s (afterWrite reg w s) :=
  .write reg w (.refl _)

/-- A change of `fsm` and the pipeline after an operation is no effect on the devices. -/
theorem DeviceEffect.move {s u : State} (h : DeviceEffect s u) (c : StateCode) (p : Pipeline) :
    DeviceEffect s { u with fsm := c, p := p } := by
  rcases h with h | ⟨reg, h⟩ | ⟨reg, w, h⟩
  · exact .none ⟨h.1, h.2, h.3, h.4, h.5, h.6, h.7, h.8, h.9, h.10, h.11, h.12⟩
  · exact .read reg ⟨h.1, h.2, h.3, h.4, h.5, h.6, h.7, h.8, h.9, h.10, h.11, h.12⟩
  · exact .write reg w ⟨h.1, h.2, h.3, h.4, h.5, h.6, h.7, h.8, h.9, h.10, h.11, h.12⟩

/-- A fault raised after an operation is no effect on the devices. -/
theorem DeviceEffect.raise {s u : State} (h : DeviceEffect s u) (r : FaultReason) :
    DeviceEffect s (Sys2Proof.Machine.raise r u) := by
  rcases h with h | ⟨reg, h⟩ | ⟨reg, w, h⟩
  · exact .none ⟨h.1, h.2, h.3, h.4, h.5, h.6, h.7, h.8, h.9, h.10, h.11, h.12⟩
  · exact .read reg ⟨h.1, h.2, h.3, h.4, h.5, h.6, h.7, h.8, h.9, h.10, h.11, h.12⟩
  · exact .write reg w ⟨h.1, h.2, h.3, h.4, h.5, h.6, h.7, h.8, h.9, h.10, h.11, h.12⟩

theorem actInitDir_effect {s t : State} (h : actInitDir s = .ok t) : DeviceEffect s t :=
  actInitDir_eq_ok h ▸ (afterWrite_effect _ _ s).move _ _

theorem actInitArm0_effect {s t : State} (h : actInitArm0 s = .ok t) : DeviceEffect s t :=
  actInitArm0_eq_ok h ▸ (afterWrite_effect _ _ s).move _ _

theorem actInitArm1_effect {s t : State} (h : actInitArm1 s = .ok t) : DeviceEffect s t :=
  actInitArm1_eq_ok h ▸ (afterWrite_effect _ _ s).move _ _

theorem actPollSel_effect {s t : State} (h : actPollSel s = .ok t) : DeviceEffect s t :=
  (actPollSel_eq_ok h).2 ▸ (afterRead_effect _ s).move _ _

theorem actPollA_effect {s t : State} (h : actPollA s = .ok t) : DeviceEffect s t := by
  rcases actPollA_eq_ok h with ⟨-, n, -, rfl⟩ | ⟨-, rfl⟩ <;> exact (afterRead_effect _ s).move _ _

theorem actPollB_effect {s t : State} (h : actPollB s = .ok t) : DeviceEffect s t := by
  have hu : DeviceEffect s (afterPollB s) := (afterRead_effect _ s).move _ _
  obtain ⟨-, ⟨wa, -, rfl⟩ | ⟨-, rfl⟩⟩ := actPollB_eq_ok h
  · exact hu.move _ _
  · exact hu.raise _

theorem actConvert_effect {s t : State} (h : actConvert s = .ok t) : DeviceEffect s t := by
  have hu : ∀ p, DeviceEffect s { s with p := p } := (DeviceEffect.none (.refl s)).move s.fsm
  obtain ⟨wa, -, ⟨-, rfl⟩ | ⟨-, ⟨wb, -, rfl⟩ | ⟨-, rfl⟩⟩⟩ := actConvert_eq_ok h
  · exact (hu _).move _ _
  · exact (hu _).move _ _
  · exact (hu _).raise _

theorem actDecide_effect {s t : State} (h : actDecide s = .ok t) : DeviceEffect s t := by
  rcases actDecide_eq_ok h with ⟨-, m, -, rfl⟩ | ⟨-, v, a, -, -, rfl⟩ <;>
    exact (DeviceEffect.none (.refl s)).move _ _

theorem actActuate_effect {s t : State} (h : actActuate s = .ok t) : DeviceEffect s t := by
  obtain ⟨x, -, rfl | ⟨r, -, rfl⟩⟩ := actActuate_eq_ok h
  · exact (afterWrite_effect .gpioData (patternWord x) s).move _ _
  · exact ((DeviceEffect.none (.refl s)).move s.fsm { s.p with pat := some x }).raise r

/-- All that an operation which answers a next state can have done to the devices and the history. -/
theorem exec_effect {i : Instr} {s t : State} (h : exec i s = .next t) : DeviceEffect s t := by
  have key : ∀ act : State → Except FaultReason State, (∀ u, act s = .ok u → DeviceEffect s u) →
      runAction act s = .next t → DeviceEffect s t := by
    intro act hact ha
    rcases runAction_next_cases ha with ⟨-, hu | ⟨r, -, rfl⟩⟩
    · exact hact t hu
    · exact .none ⟨rfl, rfl, rfl, rfl, rfl, rfl, rfl, rfl, rfl, rfl, rfl, rfl⟩
  have hread : ∀ d reg, ∀ u, busReadOnly d reg s = .ok u → DeviceEffect s u :=
    fun d reg u hu => busReadOnly_eq_ok hu ▸ afterRead_effect reg s
  have hwrite : ∀ d reg w, ∀ u, busWrite d reg w s = .ok u → DeviceEffect s u :=
    fun d reg w u hu => busWrite_eq_ok hu ▸ afterWrite_effect reg w s
  have hmove : ∀ c p, DeviceEffect s { s with fsm := c, p := p } := (DeviceEffect.none (.refl s)).move
  cases i with
  | rdAdc n => exact key _ (hread _ _) h
  | wrAdc0 w => exact key _ (hwrite _ _ w) h
  | wrAdc1 w => exact key _ (hwrite _ _ w) h
  | rdGpioData => exact key _ (hread _ _) h
  | wrGpioData w => exact key _ (hwrite _ _ w) h
  | rdGpioDir => exact key _ (hread _ _) h
  | wrGpioDir w => exact key _ (hwrite _ _ w) h
  | rdSwitch => exact key _ (hread _ _) h
  | wrSwitch w => exact key _ (hwrite _ _ w) h
  | unmapped d w => exact key (actUnmapped d) (fun _ hu => nomatch hu) h
  | initDir => exact key _ (fun _ => actInitDir_effect) h
  | initArm0 => exact key _ (fun _ => actInitArm0_effect) h
  | initArm1 => exact key _ (fun _ => actInitArm1_effect) h
  | pollSel => exact key _ (fun _ => actPollSel_effect) h
  | pollA => exact key _ (fun _ => actPollA_effect) h
  | pollB => exact key _ (fun _ => actPollB_effect) h
  | ready => exact key actReady (fun _ hu => by cases hu; exact hmove _ s.p) h
  | notReady => exact key actNotReady (fun _ hu => by cases hu; exact hmove _ s.p) h
  | convertState => exact key _ (fun _ => actConvert_effect) h
  | decideState => exact key _ (fun _ => actDecide_effect) h
  | actuate => exact key _ (fun _ => actActuate_effect) h
  | pace => exact key actPace (fun _ hu => by cases hu; exact hmove _ _) h
  | reservedState c => exact key actReservedState (fun _ hu => nomatch hu) h

/-- All that a raw request which is answered can have done to the devices and the history. -/
theorem rawRequest_effect {r : BusRequest} {s t : State} (h : runAction (rawRequest r) s = .next t) :
    DeviceEffect s t := by
  rcases runAction_next_cases h with ⟨-, hu | ⟨r, -, rfl⟩⟩
  · unfold rawRequest at hu
    simp only at hu
    split at hu
    · cases hu
    · split at hu
      · rw [(performWrite_eq_ok_iff.1 hu).2]
        exact afterWrite_effect _ _ s
      · split at hu
        · rename_i hr
          cases hu
          rw [(performRead_eq_ok_iff.1 hr).2.2]
          exact afterRead_effect _ s
        · cases hu
  · exact .none ⟨rfl, rfl, rfl, rfl, rfl, rfl, rfl, rfl, rfl, rfl, rfl, rfl⟩

/-- All that a step which answers a next state can have done to the devices and the history. -/
theorem step_effect {s t : State} (h : step s = .next t) :
    DeviceEffect (takeMove s) t ∨
    (∃ n v, nextMove s = .agent (.complete n v) ∧ s.adcBusy.get n = true ∧ t = adcComplete n v (takeMove s)) ∨
    (∃ n, nextMove s = .agent (.invalidate n) ∧ s.adcBusy.get n = true ∧ t = adcInvalidate n (takeMove s)) ∨
    (∃ b, nextMove s = .agent (.setSwitch b) ∧ t = { takeMove s with sw := b }) ∨
    (∃ c d, nextMove s = .reset c d ∧ cfgValid c = true ∧ t = restart c d (takeMove s)) := by
  rcases step_next_cases h with ⟨a, hm, -, ha⟩ | ⟨d, w, -, -, hx⟩ | ⟨r, -, -, hr⟩ | ⟨c, d, hm, hc, ht⟩
  · cases a with
    | seq => exact .inl (exec_effect ha)
    | complete n v =>
      rw [agentMove_complete] at ha
      rcases runAction_next_cases ha with ⟨-, hu | ⟨r, hu, -⟩⟩
      · simp only [offerComplete, Except.ok.injEq] at hu
        split at hu
        · rename_i he
          simp only [adcEnabled, Bool.and_eq_true, takeMove_adcBusy] at he
          exact .inr (.inl ⟨n, v, hm, he.2, hu.symm⟩)
        · exact .inl (.none (hu ▸ .refl _))
      · cases hu
    | invalidate n =>
      rw [agentMove_invalidate] at ha
      rcases runAction_next_cases ha with ⟨-, hu | ⟨r, hu, -⟩⟩
      · simp only [offerInvalidate, Except.ok.injEq] at hu
        split at hu
        · rename_i he
          simp only [adcEnabled, Bool.and_eq_true, takeMove_adcBusy] at he
          exact .inr (.inr (.inl ⟨n, hm, he.2, hu.symm⟩))
        · exact .inl (.none (hu ▸ .refl _))
      · cases hu
    | setSwitch b =>
      rw [agentMove_setSwitch] at ha
      rcases runAction_next_cases ha with ⟨-, hu | ⟨r, hu, -⟩⟩
      · cases hu
        exact .inr (.inr (.inr (.inl ⟨b, hm, rfl⟩)))
      · cases hu
  · exact .inl (exec_effect hx)
  · exact .inl (rawRequest_effect hr)
  · exact .inr (.inr (.inr (.inr ⟨c, d, hm, hc, ht⟩)))

end Sys2Proof.Machine
end

