-- ==== Sys2Proof/Laws/PerInstr.lean ====
section
/-! SUPPORT. What holds of every instruction, one lemma per constructor: the first byte of its encoding
selects its own row of spec/opcode_table.json and no other (spec/30_encoding.md R71, R76). -/

namespace Sys2Proof.Laws.SelectsItsRow

/-- The first byte of a well-formed instruction's encoding selects exactly one row, the instruction's own. -/
def Statement (i : Instr) : Prop :=
  i.wellFormed = true →
    ∃ b rest, encode i = b :: rest ∧ (selectedRows i.format b).map TableRow.op = [i.op]

theorem rdAdc (n : Channel) : Statement (.rdAdc n) := by
  intro _
  refine ⟨rdAdcDescriptor n, [], rfl, ?_⟩
  revert n
  decide

theorem wrAdc0 (w : Word) : Statement (.wrAdc0 w) := fun _ => ⟨_, wordLanes w, rfl, rfl⟩

theorem wrAdc1 (w : Word) : Statement (.wrAdc1 w) := fun _ => ⟨_, wordLanes w, rfl, rfl⟩

theorem rdGpioData : Statement .rdGpioData := fun _ => ⟨_, [], rfl, by decide⟩

theorem wrGpioData (w : Word) : Statement (.wrGpioData w) := fun _ => ⟨_, wordLanes w, rfl, rfl⟩

theorem rdGpioDir : Statement .rdGpioDir := fun _ => ⟨_, [], rfl, by decide⟩

theorem wrGpioDir (w : Word) : Statement (.wrGpioDir w) := fun _ => ⟨_, wordLanes w, rfl, rfl⟩

theorem rdSwitch : Statement .rdSwitch := fun _ => ⟨_, [], rfl, by decide⟩

theorem wrSwitch (w : Word) : Statement (.wrSwitch w) := fun _ => ⟨_, wordLanes w, rfl, rfl⟩

/-- Every descriptor that reaches no register selects exactly one row, an `UNMAPPED` one. -/
theorem unmapped_row : ∀ d : Fin 256, mappedDescriptors.contains (BitVec.ofFin d) = false →
    (selectedRows .bus (BitVec.ofFin d)).map TableRow.op = [.UNMAPPED] := by
  decide +kernel

theorem unmapped (d : Descriptor) (w : Word) : Statement (.unmapped d w) := by
  intro h
  have hd : mappedDescriptors.contains d = false := by
    simp only [Instr.wellFormed, Bool.and_eq_true, Bool.not_eq_true'] at h
    exact h.1
  have hrow := unmapped_row d.toFin hd
  cases hw : descriptorWrites d
  · exact ⟨d, [], by simp [encode, hw], hrow⟩
  · exact ⟨d, wordLanes w, by simp [encode, hw], hrow⟩

theorem initDir : Statement .initDir := fun _ => ⟨_, [], rfl, by decide⟩

theorem initArm0 : Statement .initArm0 := fun _ => ⟨_, [], rfl, by decide⟩

theorem initArm1 : Statement .initArm1 := fun _ => ⟨_, [], rfl, by decide⟩

theorem pollSel : Statement .pollSel := fun _ => ⟨_, [], rfl, by decide⟩

theorem pollA : Statement .pollA := fun _ => ⟨_, [], rfl, by decide⟩

theorem pollB : Statement .pollB := fun _ => ⟨_, [], rfl, by decide⟩

theorem ready : Statement .ready := fun _ => ⟨_, [], rfl, by decide⟩

theorem notReady : Statement .notReady := fun _ => ⟨_, [], rfl, by decide⟩

theorem convertState : Statement .convertState := fun _ => ⟨_, [], rfl, by decide⟩

theorem decideState : Statement .decideState := fun _ => ⟨_, [], rfl, by decide⟩

theorem actuate : Statement .actuate := fun _ => ⟨_, [], rfl, by decide⟩

theorem pace : Statement .pace := fun _ => ⟨_, [], rfl, by decide⟩

theorem reservedState (c : StateCode) : Statement (.reservedState c) := by
  intro h
  refine ⟨c.setWidth 8, [], rfl, ?_⟩
  have hc : 0xC ≤ c.toNat := by simpa [Instr.wellFormed] using h
  have : ∀ k : Fin 16, 0xC ≤ k.val →
      (selectedRows .fsm ((BitVec.ofFin k : StateCode).setWidth 8)).map TableRow.op = [.RESERVED_STATE] := by
    decide
  exact this c.toFin hc

end Sys2Proof.Laws.SelectsItsRow
end

