-- ==== Sys2Proof/Laws/Safety.lean ====
section
/-! SUPPORT. The small lemmas of the definitions in Safety.lean, and what a bus operation leaves of the
sequencer. -/

namespace Sys2Proof.Machine

/-! ### Bus operations and the sequencer -/

theorem decodeTransfer_format (d : Descriptor) (w : Word) : (decodeTransfer d w).format = .bus := by
  unfold decodeTransfer
  repeat' split
  all_goals rfl

/-- Two states agree on what the sequencer's invariant speaks of. -/
structure SameSequencer (s t : State) : Prop where
  fsm : t.fsm = s.fsm
  p : t.p = s.p
  cfg : t.cfg = s.cfg

theorem SameSequencer.refl (s : State) : SameSequencer s s := ⟨rfl, rfl, rfl⟩

theorem afterWrite_same (reg : Reg) (w : Word) (s : State) : SameSequencer s (afterWrite reg w s) :=
  ⟨regWrite_fsm reg w s, regWrite_p reg w s, regWrite_cfg reg w s⟩

theorem runAction_same {act : State → Except FaultReason State} {s t : State}
    (hact : ∀ u, act s = .ok u → SameSequencer s u) (h : runAction act s = .next t) : SameSequencer s t := by
  rcases runAction_next_cases h with ⟨-, hu | ⟨r, -, rfl⟩⟩
  · exact hact t hu
  · exact ⟨rfl, rfl, rfl⟩

/-- A bus operation leaves the sequencer alone (spec/10_state.md R21). -/
theorem exec_bus_same {i : Instr} {s t : State} (hb : i.format = .bus) (h : exec i s = .next t) :
    SameSequencer s t := by
  have hread : ∀ d reg, ∀ u, busReadOnly d reg s = .ok u → SameSequencer s u :=
    fun d reg u hu => busReadOnly_eq_ok hu ▸ ⟨rfl, rfl, rfl⟩
  have hwrite : ∀ d reg w, ∀ u, busWrite d reg w s = .ok u → SameSequencer s u :=
    fun d reg w u hu => busWrite_eq_ok hu ▸ afterWrite_same reg w s
  cases i <;> try cases hb
  case rdAdc n => exact runAction_same (hread _ _) h
  case wrAdc0 w => exact runAction_same (hwrite _ _ w) h
  case wrAdc1 w => exact runAction_same (hwrite _ _ w) h
  case rdGpioData => exact runAction_same (hread _ _) h
  case wrGpioData w => exact runAction_same (hwrite _ _ w) h
  case rdGpioDir => exact runAction_same (hread _ _) h
  case wrGpioDir w => exact runAction_same (hwrite _ _ w) h
  case rdSwitch => exact runAction_same (hread _ _) h
  case wrSwitch w => exact runAction_same (hwrite _ _ w) h
  case unmapped d w => exact runAction_same (act := actUnmapped d) (fun _ hu => nomatch hu) h

/-- A raw request leaves the sequencer alone. -/
theorem rawRequest_same {r : BusRequest} {s t : State} (h : runAction (rawRequest r) s = .next t) :
    SameSequencer s t := by
  refine runAction_same (fun u hu => ?_) h
  unfold rawRequest at hu
  simp only at hu
  split at hu
  · cases hu
  · split at hu
    · exact (performWrite_eq_ok_iff.1 hu).2 ▸ afterWrite_same _ _ _
    · split at hu
      · rename_i hr
        cases hu
        exact (performRead_eq_ok_iff.1 hr).2.2 ▸ ⟨rfl, rfl, rfl⟩
      · cases hu

/-- The sequencer's invariant speaks of `fsm`, the pipeline and the configuration only. -/
theorem SeqInv.same {s t : State} (h : SeqInv s) (e : SameSequencer s t) : SeqInv t := by
  obtain ⟨h1, h2, h3, h4⟩ := h
  obtain ⟨e1, e2, e3⟩ := e
  refine ⟨by rw [e1, e3]; exact h1, by rw [e1, e2, e3]; exact h2, ?_, by rw [e2, e3]; exact h4⟩
  unfold magnitudesGuarded at *
  rw [e1, e2, e3]
  exact h3

/-! ### What the pipeline holds -/

theorem writtenExactly_nil {p : Pipeline} (h : p.writtenExactly [] = true) : p = Pipeline.empty := by
  cases p
  simp [Pipeline.writtenExactly, allPipeRegs, Pipeline.isWritten] at h
  simp [Pipeline.empty, h]

theorem writtenExactly_sel_ch {p : Pipeline} (h : p.writtenExactly [.sel, .ch] = true) :
    ∃ b n, p = { Pipeline.empty with sel := some b, ch := some n } := by
  cases p
  simpa [Pipeline.writtenExactly, allPipeRegs, Pipeline.isWritten, Pipeline.empty, Option.isSome_iff_exists] using h

theorem writtenExactly_sa {p : Pipeline} (h : p.writtenExactly [.sa] = true) :
    ∃ w, p = { Pipeline.empty with sa := some w } := by
  cases p
  simpa [Pipeline.writtenExactly, allPipeRegs, Pipeline.isWritten, Pipeline.empty, Option.isSome_iff_exists] using h

theorem writtenExactly_polled_bucket {p : Pipeline} (h : p.writtenExactly (polledRegs .bucket) = true) :
    ∃ b n w, p = { Pipeline.empty with sel := some b, ch := some n, sa := some w } := by
  cases p
  simpa [polledRegs, Pipeline.writtenExactly, allPipeRegs, Pipeline.isWritten, Pipeline.empty,
    Option.isSome_iff_exists] using h

theorem writtenExactly_polled_threshold {p : Pipeline} (h : p.writtenExactly (polledRegs .threshold) = true) :
    ∃ wa wb, p = { Pipeline.empty with sa := some wa, sb := some wb } := by
  cases p
  simpa [polledRegs, Pipeline.writtenExactly, allPipeRegs, Pipeline.isWritten, Pipeline.empty,
    Option.isSome_iff_exists] using h

theorem writtenExactly_converted_bucket {p : Pipeline} (h : p.writtenExactly (convertedRegs .bucket) = true) :
    ∃ b n w m, p = { Pipeline.empty with sel := some b, ch := some n, sa := some w, ma := some m } := by
  cases p
  simpa [convertedRegs, Pipeline.writtenExactly, allPipeRegs, Pipeline.isWritten, Pipeline.empty,
    Option.isSome_iff_exists] using h

theorem writtenExactly_converted_threshold {p : Pipeline} (h : p.writtenExactly (convertedRegs .threshold) = true) :
    ∃ wa wb ma mb v a, p = { Pipeline.empty with
      sa := some wa, sb := some wb, ma := some ma, mb := some mb, vel := some v, ang := some a } := by
  cases p
  simpa [convertedRegs, Pipeline.writtenExactly, allPipeRegs, Pipeline.isWritten, Pipeline.empty,
    Option.isSome_iff_exists] using h

theorem writtenExactly_decided_bucket {p : Pipeline} (h : p.writtenExactly (decidedRegs .bucket) = true) :
    ∃ b n w m k, p = { Pipeline.empty with
      sel := some b, ch := some n, sa := some w, ma := some m, level := some k } := by
  cases p
  simpa [decidedRegs, Pipeline.writtenExactly, allPipeRegs, Pipeline.isWritten, Pipeline.empty,
    Option.isSome_iff_exists] using h

theorem writtenExactly_decided_threshold {p : Pipeline} (h : p.writtenExactly (decidedRegs .threshold) = true) :
    ∃ wa wb ma mb v a b, p = { Pipeline.empty with
      sa := some wa, sb := some wb, ma := some ma, mb := some mb, vel := some v, ang := some a, stall := some b } := by
  cases p
  simpa [decidedRegs, Pipeline.writtenExactly, allPipeRegs, Pipeline.isWritten, Pipeline.empty,
    Option.isSome_iff_exists] using h

/-- Where an iteration or a run begins, with an empty pipeline, the invariant holds. -/
theorem seqInv_of_empty {s : State} (hp : s.p = Pipeline.empty)
    (hc : s.fsm = Code.initDir ∨ s.fsm = Code.initArm0 ∨ s.fsm = Code.initArm1 ∨
      s.fsm = firstPoll s.cfg.strategy) : SeqInv s where
  code := by
    rcases hc with hc | hc | hc | hc <;> rw [hc] <;> cases s.cfg.strategy <;> rfl
  stage := by
    rcases hc with hc | hc | hc | hc <;> rw [hc, hp] <;> cases s.cfg.strategy <;> rfl
  guarded := by
    unfold magnitudesGuarded
    rcases hc with hc | hc | hc | hc <;> rw [hc, hp] <;> cases s.cfg.strategy <;> rfl
  flow := by
    rw [hp]
    constructor <;> first | rfl | nofun

/-! ### The history -/

theorem lastWrite_concat (reg : Reg) (es : List BusEvent) (e : BusEvent) :
    lastWrite reg (es ++ [e]) = if e.kind == .wr && e.reg == reg then some e.value else lastWrite reg es := by
  unfold lastWrite
  rw [List.reverse_append, List.reverse_singleton, List.singleton_append, List.find?_cons]
  split <;> simp_all

/-- A read leaves the mode of the history as it is. -/
theorem historyMode_concat_of_not_commands {es : List BusEvent} {e : BusEvent} (h : ∀ n, e.commands n = false) :
    historyMode (es ++ [e]) = historyMode es := by
  simp [historyMode, h]

/-- A nonzero write to channel 1 leaves the mode at `CONT`. -/
theorem historyMode_concat_of_commands_one {es : List BusEvent} {e : BusEvent} (h : e.commands 1 = true) :
    historyMode (es ++ [e]) = .cont := by
  simp [historyMode, h]

/-! ### The iteration under way -/

/-- An empty pipeline has no event of its iteration in the history. -/
@[simp] theorem openEvents_empty (c : Cfg) (w1 : Word) : openEvents c Pipeline.empty w1 = [] := rfl

/-- The history's invariant speaks of `fsm`, the pipeline, the configuration and the events only. -/
theorem HistoryInv.same {s t : State} (h : HistoryInv s) (e : SameSequencer s t) (he : t.events = s.events) :
    HistoryInv t := by
  obtain ⟨h1, h2, h3⟩ := h
  obtain ⟨e1, e2, e3⟩ := e
  exact ⟨by rw [e1, e3, he]; exact h1, by rw [e1, e2, e3, he]; exact h2, by rw [e1, e2, e3]; exact h3⟩

/-- Where an iteration begins, the history is `INIT` and whole iterations. -/
theorem historyInv_of_empty {s : State} (hp : s.p = Pipeline.empty) (hc : s.fsm = firstPoll s.cfg.strategy)
    (words : List (Word × Word))
    (he : s.events.map BusEvent.body =
      initEvents s.cfg ++ words.flatMap fun x => iterationEvents s.cfg x.1 x.2) : HistoryInv s where
  init h := absurd h (by rw [hc]; cases s.cfg.strategy <;> decide)
  iterations _ := ⟨words, 0#32, by rw [hp, openEvents_empty, List.append_nil]; exact he, by rw [hp]; nofun⟩
  failed h := by
    rw [hc] at h
    cases hs : s.cfg.strategy <;> rw [hs] at h <;>
      exact absurd h (by simp [firstPoll, Code.pollSel, Code.pollA, Code.notReady, Code.pace])

end Sys2Proof.Machine
end

