-- ==== Sys2Proof/Tests/Slice0.lean ====
section
/-! SUPPORT. The tests: terms the well-formedness check refuses, words written out from the encodings of
spec/30_encoding.md, single steps with the values of spec/95_test_vectors.md, and a witness for the
hypotheses of every statement that has some. -/

namespace Sys2Proof.Tests

open Sys2Proof Sys2Proof.Machine

/-! ### Small states -/

/-- A valid configuration that runs the stall indicator. -/
def thresholdCfg : Cfg := { Config.platform with strategy := .threshold }

/-- A valid configuration whose masks differ (spec/95_test_vectors.md P4). -/
def mismatchCfg : Cfg := { Config.platform with readyMask := 0x00008000#32 }

/-- A valid configuration at the top of the address space, with the ready flag at bit 31. -/
def highCfg : Cfg :=
  { Config.platform with
    adcReadyMask := 0x80000000#32
    readyMask := 0x00001000#32
    adcBase := 0xFFFFFFF8#32
    gpioBase := 0xFFFFFFF0#32
    switchBase := 0xFFFFFFEC#32 }

/-- The roles swapped and another trigger word (spec/92_eei_decisions.md D11, D18). -/
def swappedCfg : Cfg := { thresholdCfg with triggerValue := 0x80000000#32, velCh := 1, angCh := 0 }

/-- Two bits in the mask (spec/95_test_vectors.md R-5). -/
def twoBitMaskCfg : Cfg := { Config.platform with readyMask := 0x00018000#32 }

/-- Overlapping windows (spec/95_test_vectors.md R-6). -/
def overlapCfg : Cfg := { Config.platform with gpioBase := 0x00000004#32 }

/-- Right after a reset under a configuration. -/
def start (c : Cfg) : State := State.resetWith c ResetDraws.zero

/-- Under `BUCKET`. -/
def bucket : State := start Config.platform

/-- Under `THRESHOLD`. -/
def threshold : State := start thresholdCfg

/-- A state with a recorded fault. -/
def faulted : State := { bucket with fault := some (.unmapped (some 0x60#8) none) }

/-- In `CONT`, channel 1 ready with 4095. -/
def running : State :=
  { bucket with adcMode := .cont, adcBusy := ⟨true, true⟩, adcRdy := ⟨false, true⟩, adcMag := ⟨0#12, 4095#12⟩ }

/-- The state with one move asked for. -/
def asked (m : Move) (s : State) : State := { s with agenda := [m] }

/-- The state that an outcome answers, if it answers one. -/
def after (o : Host.Outcome State Fault Refusal) : Option State :=
  match o with
  | .next t => some t
  | .fault _ => none
  | .refused _ => none

/-- Kind, register and value of the last event. -/
def lastEvent (s : State) : Option (AccessKind × Reg × Word) := s.events.getLast?.map BusEvent.body

/-! ### Well-formedness: an ill-formed term for each check -/

theorem test_unmapped_of_a_mapped_read_is_ill_formed : (Instr.unmapped 0x20#8 0#32).wellFormed = false := by decide
theorem test_unmapped_of_a_mapped_write_is_ill_formed : (Instr.unmapped 0x81#8 5#32).wellFormed = false := by decide
theorem test_unmapped_read_with_data_is_ill_formed : (Instr.unmapped 0x22#8 1#32).wellFormed = false := by decide
theorem test_reserved_state_below_C_is_ill_formed : (Instr.reservedState 0xB#4).wellFormed = false := by decide
theorem test_well_formed_neighbours :
    (Instr.unmapped 0xA2#8 1#32).wellFormed = true ∧ (Instr.unmapped 0x22#8 0#32).wellFormed = true ∧
    (Instr.reservedState 0xC#4).wellFormed = true := by decide

/-! ### Decoding: words written out from spec/30_encoding.md R70, R71 and R76 -/

theorem test_decode_rdAdc : decode .bus [0b00000001#8] = .ok (.rdAdc 1, []) := by decide
theorem test_decode_wrAdc0 :
    decode .bus [0b10000000#8, 0x01#8, 0x00#8, 0x00#8, 0x00#8] = .ok (.wrAdc0 0x00000001#32, []) := by decide
theorem test_decode_wrAdc1 :
    decode .bus [0b10000001#8, 0xEF#8, 0xBE#8, 0xAD#8, 0xDE#8] = .ok (.wrAdc1 0xDEADBEEF#32, []) := by decide
theorem test_decode_rdGpioData : decode .bus [0b00100000#8, 0x7F#8] = .ok (.rdGpioData, [0x7F#8]) := by decide
theorem test_decode_wrGpioData :
    decode .bus [0b10100000#8, 0x1F#8, 0xFC#8, 0xFF#8, 0xFF#8] = .ok (.wrGpioData 0xFFFFFC1F#32, []) := by decide
theorem test_decode_rdGpioDir : decode .bus [0b00100001#8] = .ok (.rdGpioDir, []) := by decide
theorem test_decode_wrGpioDir :
    decode .bus [0b10100001#8, 0xFF#8, 0x03#8, 0x00#8, 0x00#8] = .ok (.wrGpioDir 0x000003FF#32, []) := by decide
theorem test_decode_rdSwitch : decode .bus [0b01000000#8] = .ok (.rdSwitch, []) := by decide
theorem test_decode_wrSwitch :
    decode .bus [0b11000000#8, 0x01#8, 0x00#8, 0x00#8, 0x00#8] = .ok (.wrSwitch 0x00000001#32, []) := by decide
theorem test_decode_unmapped_read : decode .bus [0b00000010#8] = .ok (.unmapped 0x02#8 0#32, []) := by decide
theorem test_decode_unmapped_write :
    decode .bus [0b11111111#8, 0x01#8, 0x02#8, 0x03#8, 0x04#8] = .ok (.unmapped 0xFF#8 0x04030201#32, []) := by
  decide
theorem test_decode_write_without_data : decode .bus [0b10100000#8, 0x1F#8] = .error .noDataWord := by decide
theorem test_decode_nothing : decode .bus [] = .error .noByte ∧ decode .fsm [] = .error .noByte := by decide
theorem test_decode_initDir : decode .fsm [0b0000#8] = .ok (.initDir, []) := by decide
theorem test_decode_initArm0 : decode .fsm [0b0001#8] = .ok (.initArm0, []) := by decide
theorem test_decode_initArm1 : decode .fsm [0b0010#8] = .ok (.initArm1, []) := by decide
theorem test_decode_pollSel : decode .fsm [0b0011#8] = .ok (.pollSel, []) := by decide
theorem test_decode_pollA : decode .fsm [0b0100#8] = .ok (.pollA, []) := by decide
theorem test_decode_pollB : decode .fsm [0b0101#8] = .ok (.pollB, []) := by decide
theorem test_decode_ready : decode .fsm [0b0110#8] = .ok (.ready, []) := by decide
theorem test_decode_notReady : decode .fsm [0b0111#8] = .ok (.notReady, []) := by decide
theorem test_decode_convert : decode .fsm [0b1000#8] = .ok (.convertState, []) := by decide
theorem test_decode_decide : decode .fsm [0b1001#8] = .ok (.decideState, []) := by decide
theorem test_decode_actuate : decode .fsm [0b1010#8] = .ok (.actuate, []) := by decide
theorem test_decode_pace : decode .fsm [0b1011#8] = .ok (.pace, []) := by decide
theorem test_decode_reservedState : decode .fsm [0b1110#8] = .ok (.reservedState 0xE#4, []) := by decide
theorem test_decode_state_too_wide : decode .fsm [0b00010000#8] = .error .stateCodeTooWide := by decide
theorem test_table_words :
    decodeTableWord 4 0xA = some .actuate ∧ decodeTableWord 8 0x40 = some .rdSwitch ∧
    decodeTableWord 8 0xA1 = some (.wrGpioDir 0#32) ∧ decodeTableWord 40 0x0000000180 = some (.wrAdc0 1#32) := by
  decide

/-! ### Register accesses (spec/95_test_vectors.md L2.1) -/

/-- A1. -/
theorem test_rdAdc_ready : ∃ t w,
    exec (.rdAdc 0) { running with adcRdy := ⟨true, true⟩, adcMag := ⟨0x800#12, 0#12⟩ } = .next t ∧
    lastEvent t = some (.rd, .adcChannel 0, w) ∧ readyOk Config.platform w = true ∧ (mag w).toNat = 0x800 := by
  refine ⟨_, _, rfl, rfl, ?_, ?_⟩
  · exact readyOk_sampleWord (c := Config.platform) (by decide) rfl true _ _
  · exact congrArg BitVec.toNat (mag_sampleWord_ready (c := Config.platform) (by decide) 0x800#12 _)

/-- A2. -/
theorem test_rdAdc_not_ready : ∃ t w,
    exec (.rdAdc 1) bucket = .next t ∧ lastEvent t = some (.rd, .adcChannel 1, w) ∧
    w &&& 0x00010000#32 = 0#32 :=
  ⟨_, _, rfl, rfl, sampleWord_and_readyMask (c := Config.platform) (by decide) false _ _⟩

/-- A4. -/
theorem test_wrAdc0_triggers :
    (after (exec (.wrAdc0 1#32) bucket)).map (fun t => (t.adcMode, t.adcBusy, t.adcRdy)) =
      some (.single, ⟨true, true⟩, ⟨false, false⟩) := by decide
/-- A5. -/
theorem test_wrAdc0_zero :
    (after (exec (.wrAdc0 0#32) bucket)).map (fun t => (t.adcMode, t.adcBusy, lastEvent t)) =
      some (.off, ⟨false, false⟩, some (.wr, .adcChannel 0, 0#32)) := by decide
/-- A7: here the numbers and order of the events too. -/
theorem test_wrAdc0_in_cont :
    (after (exec (.wrAdc0 1#32) { running with seqNo := 3 })).map (fun t => (t.adcMode, t.seqNo, t.events)) =
      some (.cont, 4, [⟨3, .wr, .adcChannel 0, 1#32⟩]) := by decide
/-- A6. -/
theorem test_wrAdc1_after_single :
    (after (exec (.wrAdc1 0xDEADBEEF#32) { bucket with adcMode := .single })).map (fun t => (t.adcMode, t.adcBusy)) =
      some (.cont, ⟨true, true⟩) := by decide
/-- A8. -/
theorem test_wrAdc1_from_reset :
    (after (exec (.wrAdc1 1#32) bucket)).map (fun t => (t.adcMode, t.adcBusy)) = some (.cont, ⟨true, true⟩) := by
  decide

/-- The bits that a `GPIO_DATA` read takes from the latch, whatever is drawn. -/
theorem gpioDataWord_and (data dir : Pattern) (drawn k : Word) (h : k &&& dir.setWidth 32 = k) :
    gpioDataWord data dir drawn &&& k = (data &&& dir).setWidth 32 &&& k := by
  apply BitVec.eq_of_getLsbD_eq
  intro i hi
  have hk := congrArg (fun v : Word => v.getLsbD i) h
  simp only [BitVec.getLsbD_and, BitVec.getLsbD_setWidth] at hk
  cases hd : dir.getLsbD i <;> cases hki : k.getLsbD i <;> simp_all [gpioDataWord]

/-- A9. -/
theorem test_rdGpioData_all_outputs : ∃ t w,
    exec .rdGpioData { bucket with gpioDir := 0x3FF#10, gpioData := 0x01F#10 } = .next t ∧
    lastEvent t = some (.rd, .gpioData, w) ∧ w &&& 0x3FF#32 = 0x01F#32 :=
  ⟨_, _, rfl, rfl, (gpioDataWord_and _ _ _ _ (by decide)).trans (by decide)⟩
/-- A10. -/
theorem test_rdGpioData_some_inputs : ∃ t w,
    exec .rdGpioData { bucket with gpioDir := 0x00F#10, gpioData := 0x3FF#10 } = .next t ∧
    lastEvent t = some (.rd, .gpioData, w) ∧ w &&& 0x00F#32 = 0x00F#32 :=
  ⟨_, _, rfl, rfl, (gpioDataWord_and _ _ _ _ (by decide)).trans (by decide)⟩
/-- A11. -/
theorem test_wrGpioData_ignores_high_bits :
    (after (exec (.wrGpioData 0xFFFFFC1F#32) bucket)).map (fun t => (t.gpioData, lastEvent t)) =
      some (0x01F#10, some (.wr, .gpioData, 0xFFFFFC1F#32)) := by decide
/-- A12: no device changes, and the event holds the drawn word. -/
theorem test_rdGpioDir_draws : ∃ t,
    exec .rdGpioDir bucket = .next t ∧ lastEvent t = some (.rd, .gpioDir, Config.draw 0) ∧
    t.gpioDir = 0#10 ∧ t.draws = 1 := ⟨_, rfl, rfl, rfl, rfl⟩
/-- A13. -/
theorem test_wrGpioDir_enables :
    (after (exec (.wrGpioDir 0x000003FF#32) bucket)).map (fun t => (t.gpioDir, ledOe t)) =
      some (0x3FF#10, 0x3FF#10) := by decide
/-- A14. -/
theorem test_wrGpioDir_keeps_the_latch :
    (after (exec (.wrGpioDir 0x000000F0#32) { bucket with gpioDir := 0x3FF#10, gpioData := 0x155#10 })).map
      (fun t => (t.gpioData, (List.finRange 10).map (ledOut t))) =
    some (0x155#10, [none, none, none, none, some true, some false, some true, some false, none, none]) := by
  decide
/-- A15. -/
theorem test_rdSwitch_reads_the_pin : ∃ t w,
    exec .rdSwitch { bucket with sw := true } = .next t ∧ lastEvent t = some (.rd, .switchInput, w) ∧
    muxSel w = 1 := ⟨_, _, rfl, rfl, muxSel_switchWord true _⟩
/-- A16. -/
theorem test_wrSwitch_is_ignored :
    (after (exec (.wrSwitch 1#32) bucket)).map (fun t => (t.sw, lastEvent t)) =
      some (false, some (.wr, .switchInput, 1#32)) := by decide
/-- A17. -/
theorem test_unmapped_read :
    (after (step (placeTransfer 0x02#8 0#32 bucket))).map (fun t => (t.fault, t.events)) =
      some (some (.unmapped (some 0x02#8) (some 0x00000008#32)), []) := by decide
/-- A19: region 11 has no address. -/
theorem test_unmapped_write :
    (after (step (placeTransfer 0xFF#8 7#32 bucket))).map (fun t => (t.fault, t.events)) =
      some (some (.unmapped (some 0xFF#8) none), []) := by decide
/-- A21. -/
theorem test_request_of_two_bytes :
    (after (step (asked (.request ⟨false, 0x10#32, 2, 0#32⟩) bucket))).map (fun t => (t.fault, t.events)) =
      some (some (.unsupportedAccess none (some 0x10#32) 2), []) := by decide
/-- A22. -/
theorem test_request_misaligned :
    (after (step (asked (.request ⟨true, 0x12#32, 4, 0x3FF#32⟩) bucket))).map (fun t => (t.fault, t.gpioData)) =
      some (some (.unsupportedAccess none (some 0x12#32) 4), 0#10) := by decide
/-- A mapped request is an access (spec/20_memory.md R51). -/
theorem test_request_mapped :
    (after (step (asked (.request ⟨true, 0x10#32, 4, 0x3FF#32⟩) bucket))).map (fun t => (t.fault, t.gpioData)) =
      some (none, 0x3FF#10) := by decide
/-- A23. -/
theorem test_faulted_access : step (placeTransfer 0xA0#8 0x3FF#32 faulted) = .fault (.stopped (.unmapped (some 0x60#8) none)) :=
  rfl

/-! ### The converter, the switch and reset (L2.2, L2.8) -/

/-- C1: not enabled, so nothing happens. -/
theorem test_complete_not_busy :
    (after (step (choose (.complete 0 5#12) bucket))).map (fun t => (t.adcMag, t.adcRdy)) =
      some (⟨0#12, 0#12⟩, ⟨false, false⟩) := by decide
/-- C2. -/
theorem test_complete_single :
    (after (step (choose (.complete 0 100#12) { bucket with adcMode := .single, adcBusy := ⟨true, true⟩ }))).map
      (fun t => (t.adcMag.ch0, t.adcRdy, t.adcBusy)) = some (100#12, ⟨true, false⟩, ⟨false, true⟩) := by decide
/-- C4. -/
theorem test_complete_cont :
    (after (step (choose (.complete 1 4095#12) { running with adcRdy := ⟨false, false⟩ }))).map
      (fun t => (t.adcMag.ch1, t.adcRdy, t.adcBusy)) = some (4095#12, ⟨false, true⟩, ⟨true, true⟩) := by decide
/-- C5. -/
theorem test_invalidate :
    (after (step (choose (.invalidate 1) running))).map (fun t => (t.adcRdy, t.adcMag.ch1)) =
      some (⟨false, false⟩, 4095#12) := by decide
/-- C7. -/
theorem test_invalidate_not_busy :
    (after (step (choose (.invalidate 0) { bucket with adcMode := .single, adcRdy := ⟨true, true⟩ }))).map
      (fun t => t.adcRdy) = some ⟨true, true⟩ := by decide
/-- C8. -/
theorem test_complete_faulted :
    step (choose (.complete 0 5#12) { faulted with adcBusy := ⟨true, true⟩ }) =
      .fault (.stopped (.unmapped (some 0x60#8) none)) := rfl
theorem test_setSwitch : (after (step (choose (.setSwitch true) bucket))).map (fun t => t.sw) = some true := by decide
/-- R-3: a reset ends the run, and clears a fault. -/
theorem test_reset_in_a_run :
    (after (step (asked (.reset thresholdCfg ResetDraws.zero)
      { faulted with adcMode := .cont, fsm := Code.pace }))).map
      (fun t => (t.adcMode, t.fsm, t.fault, t.cfg.strategy)) = some (.off, 0#4, none, .threshold) := by decide
/-- R-5. -/
theorem test_two_bit_mask_is_refused :
    step (asked (.reset twoBitMaskCfg ResetDraws.zero) bucket) = .refused (.configRefused twoBitMaskCfg) := rfl
/-- R-6. -/
theorem test_overlap_is_refused :
    step (choose .seq (start overlapCfg)) = .refused (.configRefused overlapCfg) := rfl

/-! ### Multiplexer, detector, extractor, comparator, encoder, patterns, driver (L2.3 to L2.6) -/

/-- M1 to M3. -/
theorem test_muxSel : muxSel 0x00000000#32 = 0 ∧ muxSel 0x00000001#32 = 1 ∧ muxSel 0xFFFFFFFE#32 = 0 := by decide
/-- M4 to M6, M9, M10. -/
theorem test_readyOk_bit_16 :
    let ok := readyOk Config.platform
    ok 0x00010800#32 = true ∧ ok 0x00000800#32 = false ∧ ok 0x00018FFF#32 = true ∧ ok 0xFFFEFFFF#32 = false ∧
    ok 0x00010000#32 = true := by decide
/-- M7, M8. -/
theorem test_readyOk_bit_15 :
    readyOk mismatchCfg 0x00010800#32 = false ∧ readyOk mismatchCfg 0x00008800#32 = true ∧
    (mag 0x00008800#32).toNat = 2048 ∧ (mag 0x00018FFF#32).toNat = 4095 := by decide
/-- S1, S3, S9 and S12: the conversions. -/
theorem test_conversions :
    convVel 0#12 = 0 ∧ convAng 0#12 = -30 ∧ convVel 1410#12 = 423000 / 4095 ∧ convAng 2048#12 = -30 + 122880 / 4095 ∧
    convVel 4095#12 = 300 ∧ convAng 4095#12 = 30 := by decide +kernel
/-- S2 to S5, S7, S10 and S11. -/
theorem test_stallCmp :
    let f := fun mv ma => stallCmp (convVel mv) (convAng ma)
    f 1409#12 0#12 = true ∧ f 1410#12 0#12 = false ∧ f 1410#12 3071#12 = false ∧ f 1410#12 3072#12 = true ∧
    f 4095#12 3071#12 = false ∧ f 1300#12 2048#12 = true ∧ f 1271#12 2048#12 = true := by decide +kernel
/-- E1 to E14. -/
theorem test_levelEnc :
    [0#12, 1#12, 409#12, 410#12, 818#12, 819#12, 1000#12, 2047#12, 2048#12, 3000#12, 3685#12, 3686#12, 4094#12,
      4095#12].map (fun m => (levelEnc m).val) = [0, 0, 0, 1, 1, 2, 2, 4, 5, 7, 8, 9, 9, 10] := by decide
/-- The clamp that spec/42_compare_encode.md R161 asks for. -/
theorem test_clampLevel : (clampLevel 11).val = 10 ∧ (clampLevel 9).val = 9 := by decide
/-- spec/43_gpio_driver.md R187, G1, G2. -/
theorem test_patterns :
    [0, 1, 5, 9, 10].map (fun k : Level => patternWord (barPattern k)) =
      [0x000#32, 0x001#32, 0x01F#32, 0x1FF#32, 0x3FF#32] ∧
    patternWord (stallPattern true) = 0x000003FF#32 ∧ stallPattern false = 0#10 := by decide
/-- G3, G4. -/
theorem test_driver :
    ledOut { bucket with gpioDir := 0x3FF#10, gpioData := 0x01F#10 } 4 = some true ∧
    ledOut { bucket with gpioDir := 0x3FF#10, gpioData := 0x01F#10 } 5 = some false ∧
    ledOut { bucket with gpioData := 0x3FF#10 } 0 = none := by decide

/-! ### The sequencer (L2.7) -/

/-- `SEQ`'s next step at a state code. -/
def seqAt (c : StateCode) (s : State) : Option State := after (step (placeState c s))

/-- Q1. -/
theorem test_initDir :
    (seqAt 0x0#4 bucket).map (fun t => (t.fsm, t.gpioDir, lastEvent t)) =
      some (0x1#4, 0x3FF#10, some (.wr, .gpioDir, 0x000003FF#32)) := by decide
/-- Q2. -/
theorem test_initArm0 :
    (seqAt 0x1#4 bucket).map (fun t => (t.fsm, t.adcMode, lastEvent t)) =
      some (0x2#4, .single, some (.wr, .adcChannel 0, 0x00000001#32)) := by decide
/-- `INIT` writes the configured trigger word. -/
theorem test_initArm0_configured :
    (seqAt 0x1#4 (start swappedCfg)).map (fun t => (t.adcMode, lastEvent t)) =
      some (.single, some (.wr, .adcChannel 0, 0x80000000#32)) := by decide
/-- Q3. -/
theorem test_initArm1_bucket :
    (seqAt 0x2#4 { bucket with p := { bucket.p with sel := some 1#1 } }).map (fun t => (t.fsm, t.p.sel, lastEvent t)) =
      some (0x3#4, none, some (.wr, .adcChannel 1, 0x00000001#32)) := by decide
/-- Q4. -/
theorem test_initArm1_threshold : (seqAt 0x2#4 threshold).map (fun t => t.fsm) = some 0x4#4 := by decide
/-- Q5. -/
theorem test_pollSel : ∃ t w, step (placeState 0x3#4 { bucket with sw := true }) = .next t ∧ t.fsm = 0x4#4 ∧
    t.p.ch = some 1 ∧ lastEvent t = some (.rd, .switchInput, w) :=
  ⟨_, _, rfl, rfl, congrArg some (muxSel_switchWord true _), rfl⟩
/-- Q19. -/
theorem test_pollSel_threshold :
    (seqAt 0x3#4 threshold).map (fun t => (t.fault, t.fsm)) = some (some (.badState 0x3#4), 0x3#4) := by decide
/-- Q6. -/
theorem test_pollA_ready : ∃ t, step (placeState 0x4#4 { running with p := { running.p with ch := some 1 } }) = .next t ∧
    t.fsm = 0x6#4 :=
  ⟨_, rfl, congrArg branchReady (readyOk_sampleWord (c := Config.platform) (by decide) rfl true _ _)⟩
/-- With the roles swapped the velocity is channel 1 (spec/92_eei_decisions.md D11). -/
theorem test_pollA_swapped : ∃ t w, step (placeState 0x4#4 (start swappedCfg)) = .next t ∧
    lastEvent t = some (.rd, .adcChannel 1, w) := ⟨_, _, rfl, rfl⟩
/-- Q8. -/
theorem test_pollA_threshold : ∃ t, step (placeState 0x4#4 threshold) = .next t ∧ t.fsm = 0x5#4 := ⟨_, rfl, rfl⟩
/-- Q10. -/
theorem test_pollB_not_ready : ∃ t,
    step (placeState 0x5#4 { threshold with p := { threshold.p with sa := some 0x00010800#32 } }) = .next t ∧
    t.fsm = 0x7#4 :=
  ⟨_, rfl, congrArg (fun b => branchReady (true && b))
    (readyOk_sampleWord (c := thresholdCfg) (by decide) rfl false _ _)⟩
/-- The access stands where `p.sa` is unwritten, and so does its event (spec/20_memory.md R56). -/
theorem test_pollB_unwritten : ∃ t w, step (placeState 0x5#4 threshold) = .next t ∧
    t.fault = some (.unwritten .sa) ∧ t.fsm = 0x5#4 ∧ t.p.sb = some w ∧ t.draws = 1 ∧
    t.events = [⟨0, .rd, .adcChannel 1, w⟩] := ⟨_, _, rfl, rfl, rfl, rfl, rfl, rfl⟩
/-- Q20. -/
theorem test_pollB_bucket : (seqAt 0x5#4 bucket).map (fun t => t.fault) = some (some (.badState 0x5#4)) := by decide
/-- Q12. -/
theorem test_ready : (seqAt 0x6#4 bucket).map (fun t => (t.fsm, t.events)) = some (0x8#4, []) := by decide
/-- Q13. -/
theorem test_notReady : (seqAt 0x7#4 bucket).map (fun t => (t.fsm, t.events)) = some (0xB#4, []) := by decide
/-- Q14. -/
theorem test_convert_bucket :
    (seqAt 0x8#4 { bucket with p := { bucket.p with sa := some 0x00010BB8#32 } }).map (fun t => (t.fsm, t.p.ma, t.p.vel)) =
      some (0x9#4, some 3000#12, none) := by decide +kernel
/-- `p.ma` stands where `p.sb` is unwritten (log entry 18). -/
theorem test_convert_second_unwritten :
    (seqAt 0x8#4 { threshold with p := { threshold.p with sa := some 0x00010FFF#32 } }).map
      (fun t => (t.fault, t.p.ma)) = some (some (.unwritten .sb), some 4095#12) := by decide
/-- Q22. -/
theorem test_convert_unwritten : (seqAt 0x8#4 bucket).map (fun t => t.fault) = some (some (.unwritten .sa)) := by decide
/-- Q15. -/
theorem test_decide_bucket :
    (seqAt 0x9#4 { bucket with p := { bucket.p with ma := some 3000#12 } }).map (fun t => (t.fsm, t.p.level)) =
      some (0xA#4, some 7) := by decide
/-- S10, through `DECIDE`. -/
theorem test_decide_threshold :
    (seqAt 0x9#4 { threshold with p := { threshold.p with vel := some (convVel 1300#12), ang := some (convAng 2048#12) } }).map
      (fun t => (t.fsm, t.p.stall)) = some (0xA#4, some true) := by decide +kernel
/-- Q16. -/
theorem test_actuate_bucket :
    (seqAt 0xA#4 { bucket with p := { bucket.p with level := some 7 } }).map (fun t => (t.fsm, t.gpioData, lastEvent t)) =
      some (0xB#4, 0x07F#10, some (.wr, .gpioData, 0x0000007F#32)) := by decide
/-- G6: a pattern the latch already holds is written all the same. -/
theorem test_actuate_is_never_elided :
    (seqAt 0xA#4 { threshold with gpioData := 0x3FF#10, p := { threshold.p with stall := some true } }).map
      (fun t => (t.gpioData, lastEvent t)) = some (0x3FF#10, some (.wr, .gpioData, 0x000003FF#32)) := by decide
/-- Q17. -/
theorem test_pace_bucket :
    (seqAt 0xB#4 { bucket with p := { bucket.p with level := some 7 } }).map (fun t => (t.fsm, t.p)) =
      some (0x3#4, Pipeline.empty) := by decide +kernel
/-- Q18. -/
theorem test_pace_threshold : (seqAt 0xB#4 threshold).map (fun t => t.fsm) = some 0x4#4 := by decide
/-- Q21. -/
theorem test_reservedState :
    [0xC#4, 0xD#4, 0xE#4, 0xF#4].map (fun c => (seqAt c bucket).map (fun t => (t.fault, t.fsm))) =
      [0xC#4, 0xD#4, 0xE#4, 0xF#4].map (fun c => some (some (.badState c), c)) := by decide
/-- A table word runs as the very next step: `WR GPIO_DIR` with a data word of zero. -/
theorem test_withFetchWord :
    (after (step (State.reset.withFetchWord 8 0xA1))).map (fun t => (t.gpioDir, lastEvent t)) =
      some (0#10, some (.wr, .gpioDir, 0#32)) := by decide
/-- spec/30_encoding.md R79. -/
theorem test_text :
    instrText (.wrGpioData 0x1F#32) = some "WR GPIO_DATA, 0x0000001F" ∧ instrText (.rdAdc 1) = some "RD ADC[1]" ∧
    descriptorText 0xA0#8 = "; d=0xA0" := by decide

/-! ### Witnesses: concrete values that meet the hypotheses of each statement -/

/-- A configuration at a boundary of what is valid. -/
theorem witness_ValidConfigurationsAreThoseOfTheRules :
    cfgValid highCfg = true ∧ cfgValid Config.platform = true ∧ cfgValid thresholdCfg = true ∧
    cfgValid mismatchCfg = true ∧ cfgValid swappedCfg = true ∧
    cfgValid { swappedCfg with triggerValue := 0#32 } = false ∧ cfgValid { swappedCfg with angCh := 1 } = false ∧
    cfgValid overlapCfg = false ∧ cfgValid twoBitMaskCfg = false := by decide

theorem witness_DecodeUndoesEncode :
    (Instr.unmapped 0xA2#8 5#32).wellFormed = true ∧ (Instr.rdAdc 1).wellFormed = true := by decide
theorem witness_EncodeUndoesDecode :
    decode .bus [0xFF#8, 1#8, 2#8, 3#8, 4#8, 9#8] = .ok (.unmapped 0xFF#8 0x04030201#32, [9#8]) ∧
    decode .fsm [0x0F#8] = .ok (.reservedState 0xF#4, []) := by decide
/-- The lowest index of each unmapped range. -/
theorem witness_EveryDescriptorDecodesByTheTable :
    (descriptorRegion 0x82#8 = 0#2 ∧ (descriptorIndex 0x82#8).toNat = 2) ∧
    (descriptorRegion 0x22#8 = 1#2 ∧ (descriptorIndex 0x22#8).toNat = 2) ∧
    (descriptorRegion 0xC1#8 = 2#2 ∧ (descriptorIndex 0xC1#8).toNat = 1) ∧ descriptorRegion 0x60#8 = 3#2 := by
  decide
theorem witness_EveryStateCodeDecodesByTheTable : 0xC ≤ (0xC#4).toNat ∧ 0xC ≤ (0xF#4).toNat := by decide

theorem witness_StepRunsTheDecodedInstruction :
    cfgValid bucket.cfg = true ∧ nextMove (choose .seq bucket) = .agent .seq ∧
    nextMove (placeTransfer 0x40#8 0#32 bucket) = .transfer 0x40#8 0#32 ∧
    fetched (.agent .seq) (choose .seq bucket) = some .initDir ∧
    fetched (.transfer 0x40#8 0#32) (placeTransfer 0x40#8 0#32 bucket) = some .rdSwitch := by decide
theorem witness_StoredTableWordRunsNext :
    cfgValid State.reset.cfg = true ∧ decodeTableWord 8 0xA1 = some (.wrGpioDir 0#32) ∧
    decodeTableWord 4 0xB = some .pace := by decide

/-- The state most register statements hold in: valid, with no fault; channel 1 ready, channel 0 not. -/
theorem witness_RdAdcReturnsOneSample :
    cfgValid running.cfg = true ∧ running.fault = none ∧ running.adcRdy.get 1 = true ∧
    running.adcRdy.get 0 = false := by decide
theorem witness_WrAdc0RequestsSingleShot :
    cfgValid bucket.cfg = true ∧ bucket.fault = none ∧ (1#32 : Word) ≠ 0#32 ∧ (0#32 : Word) = 0#32 := by decide
theorem witness_WrAdc1EnablesContinuous :
    cfgValid running.cfg = true ∧ running.fault = none ∧ (0x80000000#32 : Word) ≠ 0#32 ∧ running.adcMode = .cont ∧
    ∃ t, exec (.wrAdc0 1#32) running = .next t := ⟨by decide, rfl, by decide, rfl, _, rfl⟩
theorem witness_RdGpioDataReadsBackDrivenBits :
    let s := { bucket with gpioDir := 0x00F#10 }
    cfgValid s.cfg = true ∧ s.fault = none ∧ s.gpioDir.getLsbD 3 = true ∧ s.gpioDir.getLsbD 4 = false := by decide
theorem witness_WrGpioDataLatchesTenBits :
    cfgValid bucket.cfg = true ∧ bucket.fault = none ∧ (0x200#10 : Pattern).getLsbD 9 = true := by decide
theorem witness_RdGpioDirReturnsADraw : cfgValid bucket.cfg = true ∧ bucket.fault = none := by decide
theorem witness_WrGpioDirSetsOutputEnables :
    cfgValid bucket.cfg = true ∧ bucket.fault = none ∧ (0x1FF#32 : Word).getLsbD 9 = false := by decide
theorem witness_RdSwitchSamplesThePin :
    cfgValid bucket.cfg = true ∧ bucket.fault = none ∧
    ∃ t, agentMove (.setSwitch true) bucket = .next t := ⟨by decide, rfl, _, rfl⟩
theorem witness_WrSwitchOnlyRecordsItsEvent : cfgValid threshold.cfg = true ∧ threshold.fault = none := by decide
theorem witness_UnmappedRecordsItsFault :
    cfgValid bucket.cfg = true ∧ bucket.fault = none ∧
    exec (decodeTransfer 0x41#8 0#32) bucket = exec (.unmapped 0x41#8 0#32) bucket := ⟨by decide, rfl, rfl⟩
/-- One request for each way to be rejected: the size, the alignment, an unlisted address. -/
theorem witness_RawRequestIsCheckedBeforeItIsDecoded :
    let two : BusRequest := ⟨false, 0x10#32, 2, 0#32⟩
    let odd : BusRequest := ⟨true, 0x12#32, 4, 0x3FF#32⟩
    let past : BusRequest := ⟨false, 0x08#32, 4, 0#32⟩
    cfgValid bucket.cfg = true ∧ bucket.fault = none ∧
    (nextMove (asked (.request two) bucket) = .request two ∧ two.size ≠ 4) ∧
    (nextMove (asked (.request odd) bucket) = .request odd ∧ odd.addr.toNat % 4 ≠ 0) ∧
    (nextMove (asked (.request past) bucket) = .request past ∧ past.size = 4 ∧ past.addr.toNat % 4 = 0 ∧
      past.addr ≠ bucket.cfg.adcBase ∧ past.addr ≠ bucket.cfg.adcBase + 4#32 ∧ past.addr ≠ bucket.cfg.gpioBase ∧
      past.addr ≠ bucket.cfg.gpioBase + 4#32 ∧ past.addr ≠ bucket.cfg.switchBase) := by decide
theorem witness_RequestToAMappedAddressIsItsDescriptor :
    let s := start highCfg
    let r : BusRequest := ⟨true, 0xFFFFFFFC#32, 4, 1#32⟩
    cfgValid s.cfg = true ∧ 0x81#8 ∈ mappedDescriptors ∧ descriptorAddr s.cfg 0x81#8 = some r.addr ∧
    r.size = 4 ∧ r.we = descriptorWrites 0x81#8 := by decide

theorem witness_InitPerformsTheStartupWrites : cfgValid bucket.cfg = true ∧ bucket.fault = none := by decide
/-- Both strategies. -/
theorem witness_PollSelRoutesByTheSwitch :
    (cfgValid bucket.cfg = true ∧ bucket.fault = none ∧ bucket.cfg.strategy = .bucket) ∧
    (cfgValid threshold.cfg = true ∧ threshold.fault = none ∧ threshold.cfg.strategy = .threshold) := by decide
/-- A channel that `POLL_SEL` chose, the fixed channel, and none chosen. -/
theorem witness_PollAReadsTheFirstChannel :
    let s := { bucket with p := { bucket.p with ch := some 1 } }
    (cfgValid s.cfg = true ∧ s.fault = none ∧ s.cfg.strategy = .bucket ∧ s.p.ch = some 1) ∧
    (cfgValid threshold.cfg = true ∧ threshold.fault = none ∧ threshold.cfg.strategy = .threshold) ∧
    (bucket.fault = none ∧ bucket.cfg.strategy = .bucket ∧ bucket.p.ch = none) := by decide
theorem witness_PollBReadsTheSecondChannel :
    let s := { threshold with p := { threshold.p with sa := some 0x00010800#32 } }
    (cfgValid s.cfg = true ∧ s.fault = none ∧ s.cfg.strategy = .threshold ∧ s.p.sa = some 0x00010800#32) ∧
    (cfgValid threshold.cfg = true ∧ threshold.fault = none ∧ threshold.cfg.strategy = .threshold ∧
      threshold.p.sa = none) ∧
    (bucket.fault = none ∧ bucket.cfg.strategy = .bucket) := by decide
theorem witness_BranchStatesAndPaceOnlyMoveOn : bucket.fault = none ∧ threshold.fault = none := by decide
theorem witness_ConvertExtractsAndConverts :
    let b := { bucket with p := { bucket.p with sa := some 0x00010FFF#32 } }
    let t := { threshold with p := { threshold.p with sa := some 0x00010FFF#32, sb := some 0x00010000#32 } }
    let u := { threshold with p := { threshold.p with sa := some 0x00010FFF#32 } }
    (b.fault = none ∧ b.cfg.strategy = .bucket ∧ b.p.sa = some 0x00010FFF#32) ∧
    (t.fault = none ∧ t.cfg.strategy = .threshold ∧ t.p.sa = some 0x00010FFF#32 ∧ t.p.sb = some 0x00010000#32) ∧
    (bucket.fault = none ∧ bucket.p.sa = none) ∧
    (u.fault = none ∧ u.cfg.strategy = .threshold ∧ u.p.sa = some 0x00010FFF#32 ∧ u.p.sb = none) := by decide
theorem witness_DecideAppliesTheStrategy :
    let b := { bucket with p := { bucket.p with ma := some 4095#12 } }
    let t := { threshold with p := { threshold.p with vel := some 300, ang := some 30 } }
    let u := { threshold with p := { threshold.p with vel := some 300 } }
    (b.fault = none ∧ b.cfg.strategy = .bucket ∧ b.p.ma = some 4095#12) ∧
    (t.fault = none ∧ t.cfg.strategy = .threshold ∧ t.p.vel = some 300 ∧ t.p.ang = some 30) ∧
    (bucket.fault = none ∧ bucket.cfg.strategy = .bucket ∧ bucket.p.ma = none) ∧
    (threshold.fault = none ∧ threshold.cfg.strategy = .threshold ∧ threshold.p.vel = none) ∧
    (u.fault = none ∧ u.cfg.strategy = .threshold ∧ u.p.vel = some 300 ∧ u.p.ang = none) :=
  ⟨⟨rfl, rfl, rfl⟩, ⟨rfl, rfl, rfl, rfl⟩, ⟨rfl, rfl, rfl⟩, ⟨rfl, rfl, rfl⟩, ⟨rfl, rfl, rfl, rfl⟩⟩
theorem witness_ActuateWritesThePatternOnce :
    let b := { bucket with p := { bucket.p with level := some 10 } }
    let t := { threshold with p := { threshold.p with stall := some false } }
    (cfgValid b.cfg = true ∧ b.fault = none ∧ b.cfg.strategy = .bucket ∧ b.p.level = some 10) ∧
    (cfgValid t.cfg = true ∧ t.fault = none ∧ t.cfg.strategy = .threshold ∧ t.p.stall = some false) ∧
    (bucket.cfg.strategy = .bucket ∧ bucket.p.level = none) ∧
    (threshold.cfg.strategy = .threshold ∧ threshold.p.stall = none) := by decide
theorem witness_ReservedStateRecordsBadState : (placeState 0xC#4 bucket).fault = none := rfl
/-- A step that goes on, and one that the table gives no next state. -/
theorem witness_ActionsFollowTheTransitionTable :
    cfgValid bucket.cfg = true ∧ (∃ t, exec (decodeState bucket.fsm) bucket = .next t ∧ t.fault = none) ∧
    nextCode .bucket true Code.pollB = none ∧
    ∃ t, exec (decodeState Code.pollB) { bucket with fsm := Code.pollB } = .next t :=
  ⟨by decide, ⟨_, rfl, rfl⟩, by decide, _, rfl⟩

theorem witness_AdcStepsHaveTheirEffectWhenEnabled :
    cfgValid running.cfg = true ∧ running.fault = none ∧
    nextMove (choose (.complete 1 4095#12) running) = .agent (.complete 1 4095#12) ∧
    nextMove (choose (.invalidate 0) running) = .agent (.invalidate 0) ∧ running.adcBusy.get 1 = true ∧
    bucket.adcBusy.get 1 = false := by decide
theorem witness_SwitchStepSetsThePin :
    cfgValid bucket.cfg = true ∧ bucket.fault = none ∧
    nextMove (choose (.setSwitch true) bucket) = .agent (.setSwitch true) := by decide
theorem witness_RecordedFaultIsSticky :
    faulted.fault = some (.unmapped (some 0x60#8) none) ∧ cfgValid faulted.cfg = true ∧
    (∀ c d, nextMove (choose .seq faulted) ≠ .reset c d) ∧
    ∃ t, step (asked (.reset Config.platform ResetDraws.zero) faulted) = .next t :=
  ⟨rfl, by decide, nofun, _, rfl⟩
theorem witness_ResetRestoresEveryElement :
    cfgValid thresholdCfg = true ∧
    nextMove (asked (.reset thresholdCfg ResetDraws.zero) faulted) = .reset thresholdCfg ResetDraws.zero := by decide
theorem witness_InvalidConfigurationIsRefused :
    cfgValid (start overlapCfg).cfg = false ∧ (∀ c d, nextMove (choose .seq (start overlapCfg)) ≠ .reset c d) ∧
    cfgValid twoBitMaskCfg = false ∧
    nextMove (asked (.reset twoBitMaskCfg ResetDraws.zero) bucket) = .reset twoBitMaskCfg ResetDraws.zero :=
  ⟨by decide, nofun, by decide, rfl⟩
theorem witness_LatchKeepsItsValueUnlessWritten :
    ∃ t, step (placeTransfer 0xA0#8 0x3FF#32 bucket) = .next t ∧ t.gpioData ≠ bucket.gpioData :=
  ⟨_, rfl, by decide⟩
theorem witness_EachElementHasItsWriters :
    ∃ t, step (choose (.complete 0 5#12) running) = .next t ∧
      (∀ c d, nextMove (choose (.complete 0 5#12) running) ≠ .reset c d) ∧ t.adcRdy.get 0 ≠ running.adcRdy.get 0 :=
  ⟨_, rfl, nofun, by decide⟩
/-- A step that changes each other element: the mode, a busy bit, a magnitude, the latch, the direction, the
fault record. -/
theorem witness_EachElementHasItsWriters_others :
    (∃ t, step (placeTransfer 0x81#8 1#32 bucket) = .next t ∧ t.adcMode ≠ bucket.adcMode ∧
      t.adcBusy.get 1 ≠ bucket.adcBusy.get 1) ∧
    (∃ t, step (choose (.complete 0 5#12) running) = .next t ∧ t.adcMag.get 0 ≠ running.adcMag.get 0) ∧
    (∃ t, step (placeTransfer 0xA0#8 0x3FF#32 bucket) = .next t ∧ t.gpioData ≠ bucket.gpioData) ∧
    (∃ t, step (choose .seq bucket) = .next t ∧ t.gpioDir ≠ bucket.gpioDir) ∧
    (∃ t, step (placeTransfer 0x60#8 0#32 bucket) = .next t ∧ t.fault ≠ none) :=
  ⟨⟨_, rfl, by decide, by decide⟩, ⟨_, rfl, by decide⟩, ⟨_, rfl, by decide⟩, ⟨_, rfl, by decide⟩,
    ⟨_, rfl, by decide⟩⟩
theorem witness_ContinuousModeIsAbsorbing :
    (∃ t, step (choose (.complete 0 5#12) running) = .next t) ∧ running.adcMode = .cont ∧
    running.adcBusy = ⟨true, true⟩ ∧ ∀ c d, nextMove (choose (.complete 0 5#12) running) ≠ .reset c d :=
  ⟨⟨_, rfl⟩, rfl, rfl, nofun⟩

theorem witness_EveryStepKeepsTheSequencerInvariant :
    SeqInv (choose .seq bucket) ∧ ∃ t, step (choose .seq bucket) = .next t :=
  ⟨seqInv_of_empty rfl (.inl rfl), _, rfl⟩
theorem witness_EveryStepKeepsTheAdcInvariant :
    AdcInv (choose .seq bucket) ∧ ∃ t, step (choose .seq bucket) = .next t :=
  ⟨⟨rfl, fun _ => ⟨rfl, rfl⟩, nofun⟩, _, rfl⟩
theorem witness_EveryStepKeepsTheHistoryNumbered :
    historyNumbered { choose .seq bucket with seqNo := 1, events := [⟨0, .rd, .gpioDir, 7#32⟩] } ∧
    ∃ t, step { choose .seq bucket with seqNo := 1, events := [⟨0, .rd, .gpioDir, 7#32⟩] } = .next t :=
  ⟨⟨rfl, rfl⟩, _, rfl⟩
theorem witness_EveryStepKeepsGpioFollowingHistory :
    gpioFollowsHistory (choose .seq bucket) ∧ ∃ t, step (choose .seq bucket) = .next t :=
  ⟨⟨rfl, rfl⟩, _, rfl⟩

/-- At `ACTUATE` with a decision made, under `BUCKET`. -/
def actuating : State :=
  { bucket with
    fsm := Code.actuate
    p := { Pipeline.empty with
      sel := some 1#1, ch := some 1, sa := some 0x00010BB8#32, ma := some 3000#12, level := some 7 } }

theorem witness_ActuateWritesTheSamplesPattern :
    SeqInv actuating ∧ cfgValid actuating.cfg = true ∧ actuating.fault = none ∧ actuating.fsm = Code.actuate := by
  refine ⟨⟨rfl, rfl, rfl, ?_⟩, by decide, rfl, rfl⟩
  constructor
  · rfl
  · rintro m ⟨⟩
    exact congrArg some (by decide)
  · nofun
  · nofun
  · nofun
  · rintro k ⟨⟩
    exact congrArg some (by decide)
  · nofun
  · nofun

/-- At `ACTUATE` with a decision made, under `THRESHOLD`. -/
def stalling : State :=
  { threshold with
    fsm := Code.actuate
    p := { Pipeline.empty with
      sa := some 0x00010000#32, sb := some 0x00010000#32, ma := some 0#12, mb := some 0#12
      vel := some (convVel 0#12), ang := some (convAng 0#12), stall := some true } }

theorem witness_ActuateWritesTheSamplesPattern_threshold :
    SeqInv stalling ∧ cfgValid stalling.cfg = true ∧ stalling.fault = none ∧ stalling.fsm = Code.actuate := by
  refine ⟨⟨rfl, rfl, rfl, ?_⟩, by decide, rfl, rfl⟩
  constructor
  · rfl
  · rintro m ⟨⟩
    rfl
  · rintro m ⟨⟩
    rfl
  · rintro v ⟨⟩
    rfl
  · rintro a ⟨⟩
    rfl
  · nofun
  · rintro b ⟨⟩
    exact ⟨_, _, rfl, rfl, by decide +kernel⟩
  · nofun

theorem witness_EveryAgentMoveKeepsTheRunInvariant :
    nextMove (choose .seq bucket) = .agent .seq ∧ cfgValid (choose .seq bucket).cfg = true ∧
    (choose .seq bucket).fault = none ∧ SeqInv (choose .seq bucket) ∧ HistoryInv (choose .seq bucket) :=
  ⟨rfl, by decide, rfl, seqInv_of_empty rfl (.inl rfl), ⟨fun _ => rfl, fun h => absurd h (by decide), by decide⟩⟩
theorem witness_NoRunFaults : RunsTo Config.platform 0 bucket := .reset _ (by decide)
/-- Before `INIT_DIR`, and after it. -/
theorem witness_DirectionIsFixedAfterInitDir :
    (RunsTo Config.platform 0 bucket ∧ bucket.fsm = Code.initDir) ∧
    ∃ t, RunsTo Config.platform 0 t ∧ t.fsm ≠ Code.initDir :=
  ⟨⟨.reset _ (by decide), rfl⟩, _, .move .seq (.reset ResetDraws.zero (by decide)) rfl, by decide⟩

/-- A run under the platform's configuration in which no conversion has completed stands at state code `c`. -/
structure Waiting (c : StateCode) (s : State) : Prop where
  run : RunsTo Config.platform 0 s
  cfg : s.cfg = Config.platform
  fault : s.fault = none
  code : s.fsm = c
  rdy : s.adcRdy = ⟨false, false⟩

/-- One more step of `SEQ`, which does `act`. -/
theorem Waiting.next {c d : StateCode} {s t : State} {act : State → Except FaultReason State} (h : Waiting c s)
    (hc : c ≠ Code.pace) (he : ∀ u, exec (decodeState c) u = runAction act u)
    (ha : act { s with agenda := [], tick := s.tick + 1 } = .ok t)
    (hcfg : t.cfg = s.cfg) (hf : t.fault = s.fault) (hd : t.fsm = d) (hr : t.adcRdy = s.adcRdy) : Waiting d t := by
  have hm : step (choose .seq s) = .next t := by
    rw [step_choose (h.cfg ▸ by decide), agentMove_seq]
    exact (congrArg (fun x => exec (decodeState x) _) h.code).trans ((he _).trans (runAction_of_ok h.fault ha))
  have hrun := h.run.move .seq hm
  rw [if_neg (by simp [h.code, hc])] at hrun
  exact ⟨hrun, hcfg.trans h.cfg, hf.trans h.fault, hd, hr.trans h.rdy⟩

/-- Where no conversion completes, the first iteration takes the `NOT_READY` branch to its `PACE`. -/
theorem witness_HistoryIsInitThenIterations : ∃ s, ObservedAt Config.platform 1 s := by
  have hv {s : State} (h : s.cfg = Config.platform) : cfgValid s.cfg = true := h ▸ by decide
  have hb {s : State} (h : s.cfg = Config.platform) : s.cfg.strategy = .bucket := h ▸ rfl
  have h0 : Waiting Code.initDir bucket := ⟨.reset _ (by decide), rfl, rfl, rfl, rfl⟩
  obtain ⟨s1, h1⟩ : ∃ u, Waiting Code.initArm0 u :=
    ⟨_, h0.next (by decide) exec_initDir (actInitDir_of_valid (hv h0.cfg)) rfl rfl rfl rfl⟩
  obtain ⟨s2, h2⟩ : ∃ u, Waiting Code.initArm1 u :=
    ⟨_, h1.next (by decide) exec_initArm0 (actInitArm0_of_valid (hv h1.cfg)) (regWrite_cfg _ _ _)
      (regWrite_fault _ _ _) rfl (regWrite_adcRdy _ _ _)⟩
  obtain ⟨s3, h3⟩ : ∃ u, Waiting Code.pollSel u :=
    ⟨_, h2.next (by decide) exec_initArm1 (actInitArm1_of_valid (hv h2.cfg)) (regWrite_cfg _ _ _)
      (regWrite_fault _ _ _) ((congrArg (fun c => firstPoll (Cfg.strategy c)) (regWrite_cfg _ _ _)).trans
        (congrArg firstPoll (hb h2.cfg))) (regWrite_adcRdy _ _ _)⟩
  obtain ⟨s4, h4, n, hn⟩ : ∃ u, Waiting Code.pollA u ∧ ∃ n, u.p.ch = some n :=
    ⟨_, h3.next (by decide) exec_pollSel (actPollSel_of_valid (hv h3.cfg) (hb h3.cfg)) rfl rfl rfl rfl, _, rfl⟩
  have hrdy : s4.adcRdy.get n = false := by
    rw [h4.rdy]
    generalize n = m
    revert m
    decide
  have hok : readyOk s4.cfg (sampleWord s4.cfg (s4.adcRdy.get n) (s4.adcMag.get n) (Config.draw s4.draws)) = false := by
    rw [h4.cfg, readyOk_sampleWord (by decide) rfl, hrdy]
  obtain ⟨s5, h5⟩ : ∃ u, Waiting Code.notReady u :=
    ⟨_, h4.next (by decide) exec_pollA (actPollA_of_valid (n := n) (hv h4.cfg) (hb h4.cfg) hn) rfl rfl
      (congrArg branchReady hok) rfl⟩
  obtain ⟨s6, h6⟩ : ∃ u, Waiting Code.pace u := ⟨_, h5.next (by decide) exec_notReady rfl rfl rfl rfl rfl⟩
  refine ⟨startIteration { s6 with agenda := [], tick := s6.tick + 1 }, s6, 0, rfl, h6.run, h6.code, ?_⟩
  rw [step_choose (hv h6.cfg), agentMove_seq]
  exact (congrArg (fun x => exec (decodeState x) _) h6.code).trans ((exec_pace _).trans (runAction_of_ok h6.fault rfl))

theorem witness_DetectorFollowsTheFlagWhenMasksAgree :
    let s := { running with p := { running.p with ch := some 1 } }
    cfgValid s.cfg = true ∧ s.fault = none ∧ s.cfg.strategy = .bucket ∧ s.cfg.readyMask = s.cfg.adcReadyMask ∧
    s.p.ch = some 1 ∧ s.adcRdy.get 1 = true := by decide
theorem witness_MismatchedMaskTestsADraw :
    cfgValid (start mismatchCfg).cfg = true ∧ (start mismatchCfg).fault = none ∧
    (start mismatchCfg).cfg.readyMask ≠ (start mismatchCfg).cfg.adcReadyMask := by decide
theorem witness_MuxDetectorAndExtractorReadTheirBits :
    (0xFFFFFFFE#32 : Word).getLsbD 0 = false ∧ (1#32 : Word).getLsbD 0 = true := by decide
theorem witness_ConversionsAreAffineAndIncreasing : (4094#12 : Magnitude).toNat < (4095#12 : Magnitude).toNat := by decide
theorem witness_TiesNeverDecideAndNeverStall : (0 : ℚ) ≤ 2 ∧ (2 : ℚ) * 2 = 4 := by decide +kernel
theorem witness_LevelIsClampedAndMonotone :
    (409#12 : Magnitude).toNat ≤ (410#12 : Magnitude).toNat ∧ 10 ≤ 11 := by decide
theorem witness_DriverShowsTheLatchWhereEnabled :
    ({ bucket with gpioDir := 0x200#10 } : State).gpioDir.getLsbD (9 : Fin 10).val = true ∧
    bucket.gpioDir.getLsbD (9 : Fin 10).val = false := by decide

end Sys2Proof.Tests
end

/-! Which configurations have runs (spec/00_scope.md R6, R8; spec/20_memory.md R51), and what the step does
with the others. -/

namespace Sys2Proof.Machine

/-! ### The checks of a configuration, in the words of the rules -/

theorem getLsbD_twoPow_eq_true_iff {k j : Nat} (hk : k < 32) :
    (BitVec.twoPow 32 k).getLsbD j = true ↔ j = k := by
  simp only [BitVec.getLsbD_twoPow, hk, decide_true, Bool.true_and, decide_eq_true_eq]
  exact eq_comm

/-- `twoPow 32 k` is the word whose one set bit is bit `k`. -/
theorem eq_twoPow_iff_getLsbD {m : Word} {k : Nat} (hk : k < 32) :
    m = BitVec.twoPow 32 k ↔ ∀ j, m.getLsbD j = true ↔ j = k := by
  constructor
  · rintro rfl j
    exact getLsbD_twoPow_eq_true_iff hk
  · intro hbits
    apply BitVec.eq_of_getLsbD_eq
    intro j _
    rw [Bool.eq_iff_iff, hbits j, getLsbD_twoPow_eq_true_iff hk]

theorem readyMaskValid_iff_oneBit {m : Word} :
    readyMaskValid m = true ↔ ∃ i, 12 ≤ i ∧ i < 32 ∧ ∀ j, m.getLsbD j = true ↔ j = i := by
  rw [readyMaskValid_iff]
  refine exists_congr fun i => and_congr_right fun _ => and_congr_right fun hi => ?_
  exact eq_twoPow_iff_getLsbD hi

theorem windowValid_iff {base : Word} {size : Nat} :
    windowValid base size = true ↔ base.toNat % 4 = 0 ∧ base.toNat + size ≤ 2 ^ 32 := by
  simp only [windowValid, Bool.and_eq_true, beq_iff_eq, decide_eq_true_eq]

/-- Two nonempty windows lie one after the other exactly when they share no address. If they lie otherwise,
the higher of the two bases is in both. -/
theorem windowsDisjoint_iff {a b : Word} {sizeA sizeB : Nat} (hA : 0 < sizeA) (hB : 0 < sizeB) :
    windowsDisjoint a sizeA b sizeB = true ↔
      ∀ x : Nat, ¬ ((a.toNat ≤ x ∧ x < a.toNat + sizeA) ∧ (b.toNat ≤ x ∧ x < b.toNat + sizeB)) := by
  simp only [windowsDisjoint, Bool.or_eq_true, decide_eq_true_eq]
  constructor
  · rintro horder x ⟨hxa, hxb⟩
    omega
  · intro hshare
    have hmax := hshare (max a.toNat b.toNat)
    omega

/-! ### The refusal -/

theorem guardCfg_of_invalid {c : Cfg} (h : cfgValid c = false) (o : Host.Outcome State Fault Refusal) :
    guardCfg c o = .refused (.configRefused c) := by
  simp [guardCfg, h]

/-- The configuration a move runs under: a reset samples its own (spec/00_scope.md R8), every other move
finds the state's. -/
def moveCfg (m : Move) (s : State) : Cfg :=
  match m with
  | .agent _ | .transfer _ _ | .request _ => s.cfg
  | .reset c _ => c

theorem moveCfg_of_not_reset {m : Move} (h : ∀ c d, m ≠ .reset c d) (s : State) : moveCfg m s = s.cfg := by
  cases m with
  | agent a => rfl
  | transfer d w => rfl
  | request r => rfl
  | reset c d => exact absurd rfl (h c d)

/-- No move is made under an invalid configuration. -/
theorem makeMove_of_invalid {m : Move} {s : State} (h : cfgValid (moveCfg m s) = false) :
    makeMove m s = .refused (.configRefused (moveCfg m s)) := by
  cases m with
  | agent a => exact guardCfg_of_invalid h _
  | transfer d w => exact guardCfg_of_invalid h _
  | request r => exact guardCfg_of_invalid h _
  | reset c d => exact guardCfg_of_invalid h _

/-- Taking the move off the agenda leaves the configuration it runs under. -/
theorem moveCfg_takeMove (m : Move) (s : State) : moveCfg m (takeMove s) = moveCfg m s := by
  cases m <;> rfl

theorem step_of_invalid {s : State} (h : cfgValid (moveCfg (nextMove s) s) = false) :
    step s = .refused (.configRefused (moveCfg (nextMove s) s)) := by
  rw [← moveCfg_takeMove] at h ⊢
  exact makeMove_of_invalid h

end Sys2Proof.Machine

namespace Sys2Proof.Proofs.Scope

open Sys2Proof Sys2Proof.Machine

/-- Settles O35: each check of `cfgValid` is the rule it stands for. -/
theorem validConfigurationsAreThoseOfTheRules : Obligations.ValidConfigurationsAreThoseOfTheRules := by
  intro c
  rw [cfgValid_iff]
  simp only [readyMaskValid_iff_oneBit, windowValid_iff,
    windowsDisjoint_iff (show 0 < 8 by decide) (show 0 < 8 by decide),
    windowsDisjoint_iff (show 0 < 8 by decide) (show 0 < 4 by decide)]
  constructor
  · rintro ⟨hadcMask, hmask, ⟨hadcAligned, hadcFits⟩, ⟨hgpioAligned, hgpioFits⟩,
      ⟨hswitchAligned, hswitchFits⟩, hdisjoint⟩
    exact ⟨hadcMask, hmask, hadcAligned, hgpioAligned, hswitchAligned, hadcFits, hgpioFits, hswitchFits, hdisjoint⟩
  · rintro ⟨hadcMask, hmask, hadcAligned, hgpioAligned, hswitchAligned, hadcFits, hgpioFits, hswitchFits, hdisjoint⟩
    exact ⟨hadcMask, hmask, ⟨hadcAligned, hadcFits⟩, ⟨hgpioAligned, hgpioFits⟩,
      ⟨hswitchAligned, hswitchFits⟩, hdisjoint⟩

/-- Settles O36: every move is guarded by the configuration it runs under. -/
theorem invalidConfigurationIsRefused : Obligations.InvalidConfigurationIsRefused := by
  constructor
  · intro s hinvalid hmove
    have hcfg : moveCfg (nextMove s) s = s.cfg := moveCfg_of_not_reset hmove s
    rw [← hcfg] at hinvalid ⊢
    exact step_of_invalid hinvalid
  · intro s c d hinvalid hmove
    have hcfg : moveCfg (nextMove s) s = c := by rw [hmove]; rfl
    rw [← hcfg] at hinvalid ⊢
    exact step_of_invalid hinvalid

end Sys2Proof.Proofs.Scope

/-! What a write leaves, what a raw request that is answered has done, and what the moves of the environment do. -/

namespace Sys2Proof.Machine

/-! ### The state after a write, beside the device behind the register -/

@[simp] theorem afterWrite_fsm (reg : Reg) (w : Word) (s : State) : (afterWrite reg w s).fsm = s.fsm :=
  regWrite_fsm reg w s
@[simp] theorem afterWrite_p (reg : Reg) (w : Word) (s : State) : (afterWrite reg w s).p = s.p :=
  regWrite_p reg w s
@[simp] theorem afterWrite_cfg (reg : Reg) (w : Word) (s : State) : (afterWrite reg w s).cfg = s.cfg :=
  regWrite_cfg reg w s
@[simp] theorem afterWrite_adcRdy (reg : Reg) (w : Word) (s : State) :
    (afterWrite reg w s).adcRdy = s.adcRdy := regWrite_adcRdy reg w s
@[simp] theorem afterWrite_adcMag (reg : Reg) (w : Word) (s : State) :
    (afterWrite reg w s).adcMag = s.adcMag := regWrite_adcMag reg w s
@[simp] theorem afterWrite_sw (reg : Reg) (w : Word) (s : State) : (afterWrite reg w s).sw = s.sw :=
  regWrite_sw reg w s
@[simp] theorem afterWrite_seqNo (reg : Reg) (w : Word) (s : State) :
    (afterWrite reg w s).seqNo = s.seqNo + 1 := congrArg (· + 1) (regWrite_seqNo reg w s)
@[simp] theorem afterWrite_events (reg : Reg) (w : Word) (s : State) :
    (afterWrite reg w s).events = s.events ++ [⟨s.seqNo, .wr, reg, w⟩] := by
  simp [afterWrite]

/-! ### Raw requests and the moves of the environment -/

theorem registerAddr_of_registerAt {c : Cfg} {addr : Word} {reg : Reg} (h : registerAt c addr = some reg) :
    registerAddr c reg = addr := by
  simpa using List.find?_some h

theorem Access.size_of_supported {a : Access} (h : a.unsupported = false) : a.size = 4 := by
  simp only [Access.unsupported, Bool.or_eq_false_iff, bne_eq_false_iff_eq] at h
  exact h.1

/-- All that an answered raw request has done: a 4-byte access of the register at its address. -/
theorem rawRequest_eq_ok {r : BusRequest} {s t : State} (h : rawRequest r s = .ok t) :
    ∃ reg, registerAddr s.cfg reg = r.addr ∧ r.size = 4 ∧
      (r.we = true ∧ t = afterWrite reg r.wdata s ∨ r.we = false ∧ t = afterRead reg s) := by
  unfold rawRequest at h
  simp only at h
  split at h
  · cases h
  · rename_i reg hreg
    refine ⟨reg, registerAddr_of_registerAt hreg, ?_⟩
    split at h
    · rename_i hwe
      obtain ⟨hsize, rfl⟩ := performWrite_eq_ok_iff.1 h
      exact ⟨Access.size_of_supported hsize, .inl ⟨hwe, rfl⟩⟩
    · rename_i hwe
      split at h
      · rename_i hread
        cases h
        obtain ⟨hsize, -, rfl⟩ := performRead_eq_ok_iff.1 hread
        exact ⟨Access.size_of_supported hsize, .inr ⟨by simpa using hwe, rfl⟩⟩
      · cases h

theorem agentMove_complete_cases {n : Channel} {v : Magnitude} {s t : State}
    (h : agentMove (.complete n v) s = .next t) : s.fault = none ∧ (t = s ∨ t = adcComplete n v s) := by
  rw [agentMove_complete] at h
  obtain ⟨hf, hu | ⟨r, hu, -⟩⟩ := runAction_next_cases h
  · simp only [offerComplete, Except.ok.injEq] at hu
    split at hu
    · exact ⟨hf, .inr hu.symm⟩
    · exact ⟨hf, .inl hu.symm⟩
  · cases hu

theorem agentMove_invalidate_cases {n : Channel} {s t : State} (h : agentMove (.invalidate n) s = .next t) :
    s.fault = none ∧ (t = s ∨ t = adcInvalidate n s) := by
  rw [agentMove_invalidate] at h
  obtain ⟨hf, hu | ⟨r, hu, -⟩⟩ := runAction_next_cases h
  · simp only [offerInvalidate, Except.ok.injEq] at hu
    split at hu
    · exact ⟨hf, .inr hu.symm⟩
    · exact ⟨hf, .inl hu.symm⟩
  · cases hu

theorem agentMove_setSwitch_eq {b : Bool} {s t : State} (h : agentMove (.setSwitch b) s = .next t) :
    s.fault = none ∧ t = { s with sw := b } := by
  rw [agentMove_setSwitch] at h
  obtain ⟨hf, hu | ⟨r, hu, -⟩⟩ := runAction_next_cases h
  · cases hu
    exact ⟨hf, rfl⟩
  · cases hu

end Sys2Proof.Machine

/-! What one step keeps of the sequencer (spec/44_sequencer.md R216): an action that answers leads from each
stage of an iteration to the next. -/

namespace Sys2Proof.Machine

/-! ### The invariant's parts, in the form the actions use -/

/-- The codes of a strategy, one by one (spec/44_sequencer.md R216). -/
theorem codeAllowed_cases {st : Strategy} {c : StateCode} (h : codeAllowed st c = true) :
    c = Code.initDir ∨ c = Code.initArm0 ∨ c = Code.initArm1 ∨ c = Code.pollSel ∨ c = Code.pollA ∨
    c = Code.pollB ∨ c = Code.ready ∨ c = Code.notReady ∨ c = Code.convert ∨ c = Code.decide ∨
    c = Code.actuate ∨ c = Code.pace := by
  revert c
  cases st <;> decide

theorem SeqInv.stage_at {s : State} (h : SeqInv s) {c : StateCode} (hf : s.fsm = c) :
    stageMatches s.cfg.strategy c s.p = true := hf ▸ h.stage

theorem magnitudesGuarded_iff {s : State} : magnitudesGuarded s = true ↔
    (s.fsm = Code.ready ∨ s.fsm = Code.convert ∨ s.p.ma.isSome → samplesPassed s.cfg s.p = true) := by
  unfold magnitudesGuarded
  split <;> simp_all

theorem SeqInv.passed {s : State} (h : SeqInv s)
    (hs : s.fsm = Code.ready ∨ s.fsm = Code.convert ∨ s.p.ma.isSome) : samplesPassed s.cfg s.p = true :=
  magnitudesGuarded_iff.1 h.guarded hs

/-- Off `READY` and `CONVERT` and with no magnitude taken, nothing rests on the detector yet. -/
theorem magnitudesGuarded_of_ma_none {s : State} {c : StateCode} (hf : s.fsm = c)
    (hc : c ≠ Code.ready ∧ c ≠ Code.convert) (hm : s.p.ma = none) : magnitudesGuarded s = true := by
  simp [magnitudesGuarded_iff, hf, hc, hm]

/-- The polls take no magnitude (spec/10_state.md R30). -/
theorem ma_eq_none_of_polled {st : Strategy} {p : Pipeline} (h : p.writtenExactly (polledRegs st) = true) :
    p.ma = none := by
  cases st with
  | bucket =>
    obtain ⟨b, n, w, rfl⟩ := writtenExactly_polled_bucket h
    rfl
  | threshold =>
    obtain ⟨wa, wb, rfl⟩ := writtenExactly_polled_threshold h
    rfl

/-! ### `INIT` -/

theorem actInitDir_keeps_seqInv {s t : State} (h : SeqInv s) (hf : s.fsm = Code.initDir)
    (ht : actInitDir s = .ok t) : SeqInv t := by
  have hp : s.p = Pipeline.empty := writtenExactly_nil (h.stage_at hf)
  obtain rfl := actInitDir_eq_ok ht
  exact seqInv_of_empty (by simp [hp]) (by simp)

theorem actInitArm0_keeps_seqInv {s t : State} (h : SeqInv s) (hf : s.fsm = Code.initArm0)
    (ht : actInitArm0 s = .ok t) : SeqInv t := by
  have hp : s.p = Pipeline.empty := writtenExactly_nil (h.stage_at hf)
  obtain rfl := actInitArm0_eq_ok ht
  exact seqInv_of_empty (by simp [hp]) (by simp)

/-- `StartIteration()` makes the pipeline empty, whatever it held (spec/44_sequencer.md R212). -/
theorem startIteration_seqInv (s : State) : SeqInv (startIteration s) :=
  seqInv_of_empty rfl (.inr (.inr (.inr rfl)))

/-! ### The polls -/

/-- `MuxSel` is the channel of the selector bit (spec/41_adc_mux_ready.md R130). -/
theorem muxSel_eq_channelOfBit (w : Word) : muxSel w = channelOfBit ((selectorBit w).getLsbD 0) := by
  simp [muxSel, selectorBit]

theorem actPollSel_keeps_seqInv {s t : State} (h : SeqInv s) (hf : s.fsm = Code.pollSel)
    (ht : actPollSel s = .ok t) : SeqInv t := by
  have hp : s.p = Pipeline.empty := writtenExactly_nil (h.stage_at hf)
  obtain ⟨hs, rfl⟩ := actPollSel_eq_ok ht
  constructor
  case code => simp only [goto_fsm, goto_cfg, afterRead_cfg, hs]; rfl
  case stage => simp only [goto_fsm, goto_cfg, goto_p, afterRead_cfg, hs, hp]; rfl
  case guarded => exact magnitudesGuarded_of_ma_none (c := Code.pollA) rfl (by decide) (by rw [goto_p, hp]; rfl)
  case flow =>
    simp only [goto_p, goto_cfg, hp]
    constructor
    case ch => simp [muxSel_eq_channelOfBit]
    all_goals nofun

/-- Where the polls of a `BUCKET` iteration are done, the branch leads by the sample word
(spec/44_sequencer.md R204). -/
theorem seqInv_polled_bucket {s : State} {b : BitVec 1} {n : Channel} {w : Word}
    (hs : s.cfg.strategy = .bucket) (hf : s.fsm = branchReady (readyOk s.cfg w))
    (hp : s.p = { Pipeline.empty with sel := some b, ch := some n, sa := some w })
    (hn : n = channelOfBit (b.getLsbD 0)) : SeqInv s where
  code := by rw [hf, hs]; cases readyOk s.cfg w <;> rfl
  stage := by rw [hf, hs, hp]; cases readyOk s.cfg w <;> rfl
  guarded := by
    cases hw : readyOk s.cfg w with
    | true => exact magnitudesGuarded_iff.2 fun _ => by simp [samplesPassed, hs, hp, hw]
    | false =>
      rw [hw] at hf
      exact magnitudesGuarded_of_ma_none hf (by decide) (by rw [hp]; rfl)
  flow := by
    rw [hp]
    constructor
    case ch => simp [hn]
    all_goals nofun

/-- Where both polls of a `THRESHOLD` iteration are done, the branch leads by the two sample words
(spec/44_sequencer.md R205). -/
theorem seqInv_polled_threshold {s : State} {wa wb : Word}
    (hs : s.cfg.strategy = .threshold) (hf : s.fsm = branchReady (bothReady s.cfg wa wb))
    (hp : s.p = { Pipeline.empty with sa := some wa, sb := some wb }) : SeqInv s where
  code := by rw [hf, hs]; cases bothReady s.cfg wa wb <;> rfl
  stage := by rw [hf, hs, hp]; cases bothReady s.cfg wa wb <;> rfl
  guarded := by
    cases hw : bothReady s.cfg wa wb with
    | true =>
      have hpass : samplesPassed s.cfg s.p = bothReady s.cfg wa wb := by simp [samplesPassed, hs, hp, bothReady]
      exact magnitudesGuarded_iff.2 fun _ => hpass.trans hw
    | false =>
      rw [hw] at hf
      exact magnitudesGuarded_of_ma_none hf (by decide) (by rw [hp]; rfl)
  flow := by
    rw [hp]
    constructor
    case ch => rfl
    all_goals nofun

theorem actPollA_keeps_seqInv {s t : State} (h : SeqInv s) (hf : s.fsm = Code.pollA)
    (ht : actPollA s = .ok t) : SeqInv t := by
  have hstage := h.stage_at hf
  rcases actPollA_eq_ok ht with ⟨hs, m, -, rfl⟩ | ⟨hs, rfl⟩ <;> rw [hs] at hstage
  · obtain ⟨b, n, hp⟩ := writtenExactly_sel_ch hstage
    have hn : n = channelOfBit (b.getLsbD 0) := by simpa [hp] using h.flow.ch
    exact seqInv_polled_bucket hs rfl (by simp [hp]) hn
  · have hp : s.p = Pipeline.empty := writtenExactly_nil hstage
    constructor
    case code => simp only [goto_fsm, goto_cfg, afterRead_cfg, hs]; rfl
    case stage => simp only [goto_fsm, goto_p, hp]; rfl
    case guarded => exact magnitudesGuarded_of_ma_none (c := Code.pollB) rfl (by decide) (by rw [goto_p, hp]; rfl)
    case flow =>
      simp only [goto_p, goto_cfg, hp]
      constructor
      case ch => rfl
      all_goals nofun

theorem actPollB_keeps_seqInv {s t : State} (h : SeqInv s) (hf : s.fsm = Code.pollB)
    (ht : actPollB s = .ok t) : SeqInv t := by
  obtain ⟨w, hp⟩ := writtenExactly_sa (h.stage_at hf)
  obtain ⟨hs, ⟨wa, hwa, rfl⟩ | ⟨hnone, -⟩⟩ := actPollB_eq_ok ht
  · have hw : w = wa := by simpa [hp] using hwa
    exact seqInv_polled_threshold hs rfl (by simp [afterPollB, hp, hw])
  · simp [hp] at hnone

/-! ### `READY` and `NOT_READY` -/

theorem actReady_keeps_seqInv {s t : State} (h : SeqInv s) (hf : s.fsm = Code.ready)
    (ht : actReady s = .ok t) : SeqInv t := by
  cases ht
  have hpolled : s.p.writtenExactly (polledRegs s.cfg.strategy) = true := h.stage_at hf
  constructor
  case code => simp only [goto_fsm, goto_cfg]; cases s.cfg.strategy <;> rfl
  case stage => exact hpolled
  case guarded => exact magnitudesGuarded_iff.2 fun _ => h.passed (.inl hf)
  case flow => exact h.flow

theorem actNotReady_keeps_seqInv {s t : State} (h : SeqInv s) (hf : s.fsm = Code.notReady)
    (ht : actNotReady s = .ok t) : SeqInv t := by
  cases ht
  have hpolled : s.p.writtenExactly (polledRegs s.cfg.strategy) = true := h.stage_at hf
  constructor
  case code => simp only [goto_fsm, goto_cfg]; cases s.cfg.strategy <;> rfl
  case stage => exact Bool.or_eq_true_iff.2 (.inl hpolled)
  case guarded => exact magnitudesGuarded_of_ma_none (c := Code.pace) rfl (by decide) (ma_eq_none_of_polled hpolled)
  case flow => exact h.flow

/-! ### `CONVERT`, `DECIDE` and `ACTUATE` -/

theorem actConvert_keeps_seqInv {s t : State} (h : SeqInv s) (hf : s.fsm = Code.convert)
    (ht : actConvert s = .ok t) : SeqInv t := by
  have hpass := h.passed (.inr (.inl hf))
  have hpolled : s.p.writtenExactly (polledRegs s.cfg.strategy) = true := h.stage_at hf
  obtain ⟨wa, hwa, ⟨hs, rfl⟩ | ⟨hs, ⟨wb, hwb, rfl⟩ | ⟨hnone, -⟩⟩⟩ := actConvert_eq_ok ht <;> rw [hs] at hpolled
  · obtain ⟨b, n, w, hp⟩ := writtenExactly_polled_bucket hpolled
    constructor
    case code => simp only [goto_fsm, goto_cfg, hs]; rfl
    case stage => simp only [goto_fsm, goto_cfg, goto_p, hs, hp]; rfl
    case guarded => exact magnitudesGuarded_iff.2 fun _ => hpass
    case flow => exact { h.flow with ma := by rintro _ ⟨⟩; simp [hwa] }
  · obtain ⟨wa', wb', hp⟩ := writtenExactly_polled_threshold hpolled
    constructor
    case code => simp only [goto_fsm, goto_cfg, hs]; rfl
    case stage => simp only [goto_fsm, goto_cfg, goto_p, hs, hp]; rfl
    case guarded => exact magnitudesGuarded_iff.2 fun _ => hpass
    case flow =>
      exact { h.flow with
        ma := by rintro _ ⟨⟩; simp [hwa]
        mb := by rintro _ ⟨⟩; simp [hwb]
        vel := by rintro _ ⟨⟩; simp [hwa]
        ang := by rintro _ ⟨⟩; simp [hwb] }
  · obtain ⟨wa', wb', hp⟩ := writtenExactly_polled_threshold hpolled
    simp [hp] at hnone

theorem actDecide_keeps_seqInv {s t : State} (h : SeqInv s) (hf : s.fsm = Code.decide)
    (ht : actDecide s = .ok t) : SeqInv t := by
  have hconverted : s.p.writtenExactly (convertedRegs s.cfg.strategy) = true := h.stage_at hf
  rcases actDecide_eq_ok ht with ⟨hs, m, hm, rfl⟩ | ⟨hs, v, a, hv, ha, rfl⟩ <;> rw [hs] at hconverted
  · obtain ⟨b, n, w, m', hp⟩ := writtenExactly_converted_bucket hconverted
    have hmag : s.p.sa.map mag = some m := h.flow.ma m hm
    constructor
    case code => simp only [goto_fsm, goto_cfg, hs]; rfl
    case stage => simp only [goto_fsm, goto_cfg, goto_p, hs, hp]; rfl
    case guarded => exact magnitudesGuarded_iff.2 fun _ => h.passed (.inr (.inr (by simp [hm])))
    case flow =>
      refine { h.flow with level := ?_ }
      rintro _ ⟨⟩
      simpa using congrArg (Option.map levelEnc) hmag
  · obtain ⟨wa, wb, ma, mb, v', a', hp⟩ := writtenExactly_converted_threshold hconverted
    have hvel : convVel (mag wa) = v := by simpa [hp] using h.flow.vel v hv
    have hang : convAng (mag wb) = a := by simpa [hp] using h.flow.ang a ha
    constructor
    case code => simp only [goto_fsm, goto_cfg, hs]; rfl
    case stage => simp only [goto_fsm, goto_cfg, goto_p, hs, hp]; rfl
    case guarded => exact magnitudesGuarded_iff.2 fun _ => h.passed (.inr (.inr (by simp [hp])))
    case flow =>
      refine { h.flow with stall := ?_ }
      rintro _ ⟨⟩
      exact ⟨wa, wb, by simp [hp], by simp [hp], by rw [hvel, hang]⟩

/-- At `ACTUATE` the decision's pattern is the one of the sample words (spec/44_sequencer.md R218). -/
theorem decisionPattern_eq_samplePattern {s : State} {x : Pattern} (hflow : Dataflow s.cfg s.p)
    (hx : decisionPattern s = .ok x) : ∃ wa, s.p.sa = some wa ∧ x = samplePattern s.cfg wa (s.p.sb.getD 0#32) := by
  rcases decisionPattern_eq_ok hx with ⟨hs, k, hk, rfl⟩ | ⟨hs, b, hb, rfl⟩
  · obtain ⟨wa, hwa, rfl⟩ := Option.map_eq_some_iff.1 (hflow.level k hk)
    exact ⟨wa, hwa, by simp only [samplePattern, hs]⟩
  · obtain ⟨wa, wb, hwa, hwb, rfl⟩ := hflow.stall b hb
    exact ⟨wa, hwa, by simp only [samplePattern, hs, hwb, Option.getD_some]⟩

/-- Where a decision is made, `p.ma` is written, and `p.pat` completes what `ACTUATE` leaves. -/
theorem writtenExactly_actuated {st : Strategy} {p : Pipeline} (h : p.writtenExactly (decidedRegs st) = true)
    (x : Pattern) :
    p.ma.isSome ∧ Pipeline.writtenExactly { p with pat := some x } (actuatedRegs st) = true := by
  cases st with
  | bucket =>
    obtain ⟨b, n, w, m, k, rfl⟩ := writtenExactly_decided_bucket h
    exact ⟨rfl, rfl⟩
  | threshold =>
    obtain ⟨wa, wb, ma, mb, v, a, b, rfl⟩ := writtenExactly_decided_threshold h
    exact ⟨rfl, rfl⟩

theorem actActuate_keeps_seqInv {s t : State} (hv : cfgValid s.cfg = true) (h : SeqInv s)
    (hf : s.fsm = Code.actuate) (ht : actActuate s = .ok t) : SeqInv t := by
  obtain ⟨x, hx, -⟩ := actActuate_eq_ok ht
  obtain ⟨hma, hstage⟩ := writtenExactly_actuated (st := s.cfg.strategy) (h.stage_at hf) x
  rw [actActuate_of_valid hv hx, Except.ok.injEq] at ht
  subst ht
  constructor
  case code => simp only [goto_fsm, goto_cfg, afterWrite_cfg, setPat_cfg]; cases s.cfg.strategy <;> rfl
  case stage =>
    simp only [goto_fsm, goto_cfg, goto_p, afterWrite_cfg, afterWrite_p, setPat_cfg, setPat_p]
    exact Bool.or_eq_true_iff.2 (.inr hstage)
  case guarded =>
    rw [magnitudesGuarded_iff]
    simp only [goto_cfg, goto_p, afterWrite_cfg, afterWrite_p, setPat_cfg, setPat_p]
    exact fun _ => h.passed (.inr (.inr hma))
  case flow =>
    simp only [goto_cfg, goto_p, afterWrite_cfg, afterWrite_p, setPat_cfg, setPat_p]
    refine { h.flow with pat := ?_ }
    rintro _ ⟨⟩
    exact decisionPattern_eq_samplePattern h.flow hx

/-! ### The step -/

/-- An action keeps the invariant when what it answers does: a fault recorded for it changes nothing that
the invariant speaks of. -/
theorem runAction_keeps_seqInv {act : State → Except FaultReason State} {s t : State} (h : SeqInv s)
    (hact : ∀ u, act s = .ok u → SeqInv u) (ht : runAction act s = .next t) : SeqInv t := by
  rcases runAction_next_cases ht with ⟨-, hu | ⟨r, -, rfl⟩⟩
  · exact hact t hu
  · exact h.same ⟨rfl, rfl, rfl⟩

theorem exec_decodeState_keeps_seqInv {s t : State} (hv : cfgValid s.cfg = true) (h : SeqInv s)
    (ht : exec (decodeState s.fsm) s = .next t) : SeqInv t := by
  rcases codeAllowed_cases h.code with hf | hf | hf | hf | hf | hf | hf | hf | hf | hf | hf | hf <;> rw [hf] at ht
  · exact runAction_keeps_seqInv h (fun _ => actInitDir_keeps_seqInv h hf) ht
  · exact runAction_keeps_seqInv h (fun _ => actInitArm0_keeps_seqInv h hf) ht
  · exact runAction_keeps_seqInv h (fun _ hu => actInitArm1_eq_ok hu ▸ startIteration_seqInv _) ht
  · exact runAction_keeps_seqInv h (fun _ => actPollSel_keeps_seqInv h hf) ht
  · exact runAction_keeps_seqInv h (fun _ => actPollA_keeps_seqInv h hf) ht
  · exact runAction_keeps_seqInv h (fun _ => actPollB_keeps_seqInv h hf) ht
  · exact runAction_keeps_seqInv h (fun _ => actReady_keeps_seqInv h hf) ht
  · exact runAction_keeps_seqInv h (fun _ => actNotReady_keeps_seqInv h hf) ht
  · exact runAction_keeps_seqInv h (fun _ => actConvert_keeps_seqInv h hf) ht
  · exact runAction_keeps_seqInv h (fun _ => actDecide_keeps_seqInv h hf) ht
  · exact runAction_keeps_seqInv h (fun _ => actActuate_keeps_seqInv hv h hf) ht
  · exact runAction_keeps_seqInv (act := actPace) h (fun _ hu => by cases hu; exact startIteration_seqInv s) ht

/-- Only `SEQ` and a reset change what the sequencer holds (spec/10_state.md R21, R30). -/
theorem step_same_of_not_seq {s t : State} (h : step s = .next t) (hseq : nextMove s ≠ .agent .seq)
    (hreset : ∀ c d, nextMove s ≠ .reset c d) : SameSequencer s t := by
  have htake : ∀ {u}, SameSequencer (takeMove s) u → SameSequencer s u := fun hu => ⟨hu.1, hu.2, hu.3⟩
  rcases step_next_cases h with ⟨a, hm, -, ha⟩ | ⟨d, w, -, -, hx⟩ | ⟨r, -, -, hr⟩ | ⟨c, d, hm, -, -⟩
  · cases a with
    | seq => exact absurd hm hseq
    | complete n v => obtain ⟨-, rfl | rfl⟩ := agentMove_complete_cases ha <;> exact ⟨rfl, rfl, rfl⟩
    | invalidate n => obtain ⟨-, rfl | rfl⟩ := agentMove_invalidate_cases ha <;> exact ⟨rfl, rfl, rfl⟩
    | setSwitch b =>
      obtain ⟨-, rfl⟩ := agentMove_setSwitch_eq ha
      exact ⟨rfl, rfl, rfl⟩
  · exact htake (exec_bus_same (decodeTransfer_format d w) hx)
  · exact htake (rawRequest_same hr)
  · exact absurd hm (hreset c d)

/-- A step is `SEQ`'s, a reset, or one that the sequencer does not take part in. -/
theorem step_sequencer_cases {s t : State} (h : step s = .next t) :
    (nextMove s = .agent .seq ∧ cfgValid s.cfg = true ∧ exec (decodeState s.fsm) (takeMove s) = .next t) ∨
    (∃ c d, t = restart c d (takeMove s)) ∨ SameSequencer s t := by
  by_cases hseq : nextMove s = .agent .seq
  · simp only [step, hseq, makeMove, guardCfg_eq_next_iff] at h
    exact .inl ⟨hseq, h⟩
  · by_cases hreset : ∃ c d, nextMove s = .reset c d
    · obtain ⟨c, d, hm⟩ := hreset
      simp only [step, hm, makeMove, guardCfg_eq_next_iff, Host.Outcome.next.injEq] at h
      exact .inr (.inl ⟨c, d, h.2.symm⟩)
    · push Not at hreset
      exact .inr (.inr (step_same_of_not_seq h hseq hreset))

end Sys2Proof.Machine

/-! Which step writes which element (spec/10_state.md R20 to R33): what a write reaches, how the GPIO registers
follow the history, and that a write of a register comes from a move that names it. -/

namespace Sys2Proof.Machine

/-! ### A write of a register changes the device behind that register alone -/

@[simp] theorem afterWrite_gpioData_same (w : Word) (s : State) :
    (afterWrite .gpioData w s).gpioData = indicatorBits w := rfl
@[simp] theorem afterWrite_gpioDir_same (w : Word) (s : State) :
    (afterWrite .gpioDir w s).gpioDir = indicatorBits w := rfl

/-- A write to an ADC channel is no write, a trigger, or the start of `CONT` (spec/40_bus_access.md R101, R102). -/
theorem regWrite_adcChannel_cases (n : Channel) (w : Word) (s : State) :
    regWrite (.adcChannel n) w s = s ∨ regWrite (.adcChannel n) w s = adcTriggerSingle s ∨
    regWrite (.adcChannel n) w s = adcEnableContinuous s := by
  by_cases hw : w = 0#32
  · exact .inl (by rw [hw, regWrite_adc_zero])
  · rw [regWrite_adc_of_ne_zero hw]
    by_cases hn : n = 0
    · exact .inr (.inl (if_pos hn))
    · exact .inr (.inr (if_neg hn))

theorem afterWrite_gpioData_of_ne {reg : Reg} (h : reg ≠ .gpioData) (w : Word) (s : State) :
    (afterWrite reg w s).gpioData = s.gpioData := by
  cases reg with
  | adcChannel n => rcases regWrite_adcChannel_cases n w s with hw | hw | hw <;> simp [afterWrite, hw]
  | gpioData => exact absurd rfl h
  | gpioDir => rfl
  | switchInput => rfl

theorem afterWrite_gpioDir_of_ne {reg : Reg} (h : reg ≠ .gpioDir) (w : Word) (s : State) :
    (afterWrite reg w s).gpioDir = s.gpioDir := by
  cases reg with
  | adcChannel n => rcases regWrite_adcChannel_cases n w s with hw | hw | hw <;> simp [afterWrite, hw]
  | gpioData => rfl
  | gpioDir => exact absurd rfl h
  | switchInput => rfl

/-- Only a write to an ADC channel commands the ADC (spec/41_adc_mux_ready.md R124). -/
theorem afterWrite_adc_of_ne {reg : Reg} (h : ∀ n, reg ≠ .adcChannel n) (w : Word) (s : State) :
    (afterWrite reg w s).adcMode = s.adcMode ∧ (afterWrite reg w s).adcBusy = s.adcBusy := by
  cases reg with
  | adcChannel n => exact absurd rfl (h n)
  | gpioData => exact ⟨rfl, rfl⟩
  | gpioDir => exact ⟨rfl, rfl⟩
  | switchInput => exact ⟨rfl, rfl⟩

/-! ### The GPIO registers and the history -/

theorem gpioFollowsHistory_congr {s t : State} (h : gpioFollowsHistory s) (hdata : t.gpioData = s.gpioData)
    (hdir : t.gpioDir = s.gpioDir) (hevents : t.events = s.events) (hcfg : t.cfg = s.cfg) :
    gpioFollowsHistory t := by
  unfold gpioFollowsHistory
  rw [hdata, hdir, hevents, hcfg]
  exact h

/-- A read is no write: the word last written is the same. -/
theorem gpioFollowsHistory_afterRead {s : State} (h : gpioFollowsHistory s) (reg : Reg) :
    gpioFollowsHistory (afterRead reg s) := by
  unfold gpioFollowsHistory
  simp only [afterRead_events, lastWrite_concat]
  exact h

theorem gpioFollowsHistory_afterWrite {s : State} (h : gpioFollowsHistory s) (reg : Reg) (w : Word) :
    gpioFollowsHistory (afterWrite reg w s) := by
  obtain ⟨hdata, hdir⟩ := h
  constructor
  · by_cases hreg : reg = .gpioData
    · simp [hreg, lastWrite_concat]
    · rw [afterWrite_gpioData_of_ne hreg, afterWrite_events, afterWrite_cfg, lastWrite_concat,
        if_neg (by simp [hreg])]
      exact hdata
  · by_cases hreg : reg = .gpioDir
    · simp [hreg, lastWrite_concat]
    · rw [afterWrite_gpioDir_of_ne hreg, afterWrite_events, lastWrite_concat, if_neg (by simp [hreg])]
      exact hdir

theorem SameDevices.gpioFollowsHistory {s t : State} (e : SameDevices s t) (h : gpioFollowsHistory s) :
    Sys2Proof.Machine.gpioFollowsHistory t :=
  gpioFollowsHistory_congr h e.gpioData e.gpioDir e.events e.cfg

theorem DeviceEffect.gpioFollowsHistory {s t : State} (e : DeviceEffect s t) (h : gpioFollowsHistory s) :
    Sys2Proof.Machine.gpioFollowsHistory t := by
  rcases e with e | ⟨reg, e⟩ | ⟨reg, w, e⟩
  · exact e.gpioFollowsHistory h
  · exact e.gpioFollowsHistory (gpioFollowsHistory_afterRead h reg)
  · exact e.gpioFollowsHistory (gpioFollowsHistory_afterWrite h reg w)

/-- No write in the history: the reset values stand (spec/10_state.md R34). -/
theorem gpioFollowsHistory_of_noEvents {s : State} (hevents : s.events = [])
    (hdata : s.gpioData = s.cfg.gpioDataReset) (hdir : s.gpioDir = 0#10) : gpioFollowsHistory s := by
  unfold gpioFollowsHistory
  rw [hevents]
  exact ⟨hdata, hdir⟩

theorem step_keeps_gpioFollowsHistory {s t : State} (h : gpioFollowsHistory s) (ht : step s = .next t) :
    gpioFollowsHistory t := by
  have htake : gpioFollowsHistory (takeMove s) := gpioFollowsHistory_congr h rfl rfl rfl rfl
  rcases step_effect ht with e | ⟨n, v, -, -, rfl⟩ | ⟨n, -, -, rfl⟩ | ⟨b, -, rfl⟩ | ⟨c, d, -, -, rfl⟩
  · exact e.gpioFollowsHistory htake
  · exact gpioFollowsHistory_congr htake rfl rfl rfl rfl
  · exact gpioFollowsHistory_congr htake rfl rfl rfl rfl
  · exact gpioFollowsHistory_congr htake rfl rfl rfl rfl
  · exact gpioFollowsHistory_of_noEvents rfl rfl rfl

/-! ### What no access changes -/

theorem DeviceEffect.cfg_eq {s t : State} (e : DeviceEffect s t) : t.cfg = s.cfg := by
  rcases e with e | ⟨reg, e⟩ | ⟨reg, w, e⟩
  · exact e.cfg
  · exact e.cfg
  · exact e.cfg.trans (afterWrite_cfg reg w s)

theorem DeviceEffect.sw_eq {s t : State} (e : DeviceEffect s t) : t.sw = s.sw := by
  rcases e with e | ⟨reg, e⟩ | ⟨reg, w, e⟩
  · exact e.sw
  · exact e.sw
  · exact e.sw.trans (afterWrite_sw reg w s)

theorem DeviceEffect.adcRdy_eq {s t : State} (e : DeviceEffect s t) : t.adcRdy = s.adcRdy := by
  rcases e with e | ⟨reg, e⟩ | ⟨reg, w, e⟩
  · exact e.adcRdy
  · exact e.adcRdy
  · exact e.adcRdy.trans (afterWrite_adcRdy reg w s)

theorem DeviceEffect.adcMag_eq {s t : State} (e : DeviceEffect s t) : t.adcMag = s.adcMag := by
  rcases e with e | ⟨reg, e⟩ | ⟨reg, w, e⟩
  · exact e.adcMag
  · exact e.adcMag
  · exact e.adcMag.trans (afterWrite_adcMag reg w s)

/-- The history grows at its end, by one event at most, and the numbering with it (spec/20_memory.md R56). -/
def HistoryGrows (s t : State) : Prop :=
  ∃ added, t.events = s.events ++ added ∧ t.seqNo = s.seqNo + added.length ∧ added.length ≤ 1

theorem historyGrows_of_same {s t : State} (hevents : t.events = s.events) (hseq : t.seqNo = s.seqNo) :
    HistoryGrows s t := ⟨[], by simp [hevents], by simp [hseq], by simp⟩

theorem DeviceEffect.historyGrows {s t : State} (e : DeviceEffect s t) : HistoryGrows s t := by
  rcases e with e | ⟨reg, e⟩ | ⟨reg, w, e⟩
  · exact historyGrows_of_same e.events e.seqNo
  · exact ⟨[⟨s.seqNo, .rd, reg, readWord reg s⟩], e.events, e.seqNo, le_rfl⟩
  · exact ⟨[⟨s.seqNo, .wr, reg, w⟩], e.events.trans (afterWrite_events reg w s),
      e.seqNo.trans (afterWrite_seqNo reg w s), le_rfl⟩

/-! ### Which register an operation writes -/

/-- The register an operation writes, if it writes one (spec/30_encoding.md R71, R78). -/
def writtenBy : Instr → Option Reg
  | .wrAdc0 _ => some (.adcChannel 0)
  | .wrAdc1 _ => some (.adcChannel 1)
  | .wrGpioData _ => some .gpioData
  | .wrGpioDir _ => some .gpioDir
  | .wrSwitch _ => some .switchInput
  | .initDir => some .gpioDir
  | .initArm0 => some (.adcChannel 0)
  | .initArm1 => some (.adcChannel 1)
  | .actuate => some .gpioData
  | _ => none

theorem writerCode_of_writtenBy {c : StateCode} {reg : Reg} (h : writtenBy (decodeState c) = some reg) :
    writerCode reg = some c := by
  have hcodes : ∀ c : StateCode, (writtenBy (decodeState c)).all (fun r => writerCode r == some c) = true := by
    decide
  simpa [h] using hcodes c

theorem writtenBy_ite {c : Prop} [Decidable c] {i j : Instr} {reg : Reg}
    (h : writtenBy (if c then i else j) = some reg) : c ∧ writtenBy i = some reg ∨ writtenBy j = some reg := by
  split at h
  · exact .inl ⟨‹c›, h⟩
  · exact .inr h

/-- Line by line of the decoder: a line that writes tests for the descriptor of the register it writes. -/
theorem writeDescriptor_of_writtenBy {d : Descriptor} {w : Word} {reg : Reg}
    (h : writtenBy (decodeTransfer d w) = some reg) : d = writeDescriptor reg := by
  unfold decodeTransfer at h
  repeat
    rcases writtenBy_ite h with ⟨hd, h⟩ | h
    · cases h <;> exact hd
  cases h

/-- Two states agree on what the writes of registers change. -/
structure SameWritable (s t : State) : Prop where
  adcMode : t.adcMode = s.adcMode
  adcBusy : t.adcBusy = s.adcBusy
  gpioData : t.gpioData = s.gpioData
  gpioDir : t.gpioDir = s.gpioDir

/-- What the writes of registers change is kept, or written by a write of the register `target`. -/
inductive WritesOnly (target : Option Reg) (s t : State) : Prop where
  | kept (same : SameWritable s t)
  | wrote (reg : Reg) (w : Word) (at_target : target = some reg) (same : SameWritable (afterWrite reg w s) t)

theorem runAction_writesOnly {target : Option Reg} {act : State → Except FaultReason State} {s t : State}
    (hact : ∀ u, act s = .ok u → WritesOnly target s u) (h : runAction act s = .next t) :
    WritesOnly target s t := by
  rcases runAction_next_cases h with ⟨-, hu | ⟨r, -, rfl⟩⟩
  · exact hact t hu
  · exact .kept ⟨rfl, rfl, rfl, rfl⟩

/-- An operation writes the register it names and no other. -/
theorem exec_writesOnly {i : Instr} {s t : State} (h : exec i s = .next t) : WritesOnly (writtenBy i) s t := by
  have hread : ∀ d reg u, busReadOnly d reg s = .ok u → WritesOnly none s u :=
    fun d reg u hu => busReadOnly_eq_ok hu ▸ .kept ⟨rfl, rfl, rfl, rfl⟩
  have hwrite : ∀ d reg w u, busWrite d reg w s = .ok u → WritesOnly (some reg) s u :=
    fun d reg w u hu => busWrite_eq_ok hu ▸ .wrote reg w rfl ⟨rfl, rfl, rfl, rfl⟩
  cases i with
  | rdAdc n => exact runAction_writesOnly (hread _ _) h
  | wrAdc0 w => exact runAction_writesOnly (hwrite _ _ w) h
  | wrAdc1 w => exact runAction_writesOnly (hwrite _ _ w) h
  | rdGpioData => exact runAction_writesOnly (hread _ _) h
  | wrGpioData w => exact runAction_writesOnly (hwrite _ _ w) h
  | rdGpioDir => exact runAction_writesOnly (hread _ _) h
  | wrGpioDir w => exact runAction_writesOnly (hwrite _ _ w) h
  | rdSwitch => exact runAction_writesOnly (hread _ _) h
  | wrSwitch w => exact runAction_writesOnly (hwrite _ _ w) h
  | unmapped d w => exact runAction_writesOnly (act := actUnmapped d) (fun _ hu => nomatch hu) h
  | initDir =>
    exact runAction_writesOnly (fun _ hu => actInitDir_eq_ok hu ▸ .wrote _ _ rfl ⟨rfl, rfl, rfl, rfl⟩) h
  | initArm0 =>
    exact runAction_writesOnly (fun _ hu => actInitArm0_eq_ok hu ▸ .wrote _ _ rfl ⟨rfl, rfl, rfl, rfl⟩) h
  | initArm1 =>
    exact runAction_writesOnly (fun _ hu => actInitArm1_eq_ok hu ▸ .wrote _ _ rfl ⟨rfl, rfl, rfl, rfl⟩) h
  | pollSel =>
    exact runAction_writesOnly (fun _ hu => (actPollSel_eq_ok hu).2 ▸ .kept ⟨rfl, rfl, rfl, rfl⟩) h
  | pollA =>
    refine runAction_writesOnly (fun u hu => ?_) h
    rcases actPollA_eq_ok hu with ⟨-, n, -, rfl⟩ | ⟨-, rfl⟩ <;> exact .kept ⟨rfl, rfl, rfl, rfl⟩
  | pollB =>
    refine runAction_writesOnly (fun u hu => ?_) h
    obtain ⟨-, ⟨wa, -, rfl⟩ | ⟨-, rfl⟩⟩ := actPollB_eq_ok hu <;> exact .kept ⟨rfl, rfl, rfl, rfl⟩
  | ready =>
    exact runAction_writesOnly (act := actReady) (fun _ hu => by cases hu; exact .kept ⟨rfl, rfl, rfl, rfl⟩) h
  | notReady =>
    exact runAction_writesOnly (act := actNotReady) (fun _ hu => by cases hu; exact .kept ⟨rfl, rfl, rfl, rfl⟩) h
  | convertState =>
    refine runAction_writesOnly (fun u hu => ?_) h
    obtain ⟨wa, -, ⟨-, rfl⟩ | ⟨-, ⟨wb, -, rfl⟩ | ⟨-, rfl⟩⟩⟩ := actConvert_eq_ok hu <;>
      exact .kept ⟨rfl, rfl, rfl, rfl⟩
  | decideState =>
    refine runAction_writesOnly (fun u hu => ?_) h
    rcases actDecide_eq_ok hu with ⟨-, m, -, rfl⟩ | ⟨-, v, a, -, -, rfl⟩ <;> exact .kept ⟨rfl, rfl, rfl, rfl⟩
  | actuate =>
    refine runAction_writesOnly (fun u hu => ?_) h
    obtain ⟨x, -, rfl | ⟨r, -, rfl⟩⟩ := actActuate_eq_ok hu
    · exact .wrote .gpioData (patternWord x) rfl ⟨rfl, rfl, rfl, rfl⟩
    · exact .kept ⟨rfl, rfl, rfl, rfl⟩
  | pace =>
    exact runAction_writesOnly (act := actPace) (fun _ hu => by cases hu; exact .kept ⟨rfl, rfl, rfl, rfl⟩) h
  | reservedState c => exact runAction_writesOnly (act := actReservedState) (fun _ hu => nomatch hu) h

/-! ### Who writes what, over every step that is no reset -/

/-- What the writes of registers change is kept, or written by the move that names the register, or it is a
`COMPLETE`'s busy bit. -/
theorem step_writes_cases {s t : State} (h : step s = .next t) (hreset : ∀ c d, nextMove s ≠ .reset c d) :
    SameWritable s t ∨
    (∃ reg w, nextWrites reg s ∧ SameWritable (afterWrite reg w (takeMove s)) t) ∨
    (∃ n v, nextMove s = .agent (.complete n v) ∧ t = adcComplete n v (takeMove s)) := by
  have hexec : ∀ i, exec i (takeMove s) = .next t → (∀ reg, writtenBy i = some reg → nextWrites reg s) →
      SameWritable s t ∨ ∃ reg w, nextWrites reg s ∧ SameWritable (afterWrite reg w (takeMove s)) t := by
    intro i hi hnext
    rcases exec_writesOnly hi with same | ⟨reg, w, htarget, same⟩
    · exact .inl ⟨same.1, same.2, same.3, same.4⟩
    · exact .inr ⟨reg, w, hnext reg htarget, same⟩
  rcases step_next_cases h with ⟨a, hm, -, ha⟩ | ⟨d, w, hm, -, hx⟩ | ⟨r, hm, -, hr⟩ | ⟨c, d, hm, -, -⟩
  · cases a with
    | seq => exact (hexec _ ha fun reg hreg => .inl ⟨hm, writerCode_of_writtenBy hreg⟩).imp_right .inl
    | complete n v =>
      obtain ⟨-, rfl | rfl⟩ := agentMove_complete_cases ha
      · exact .inl ⟨rfl, rfl, rfl, rfl⟩
      · exact .inr (.inr ⟨n, v, hm, rfl⟩)
    | invalidate n =>
      obtain ⟨-, rfl | rfl⟩ := agentMove_invalidate_cases ha <;> exact .inl ⟨rfl, rfl, rfl, rfl⟩
    | setSwitch b =>
      obtain ⟨-, rfl⟩ := agentMove_setSwitch_eq ha
      exact .inl ⟨rfl, rfl, rfl, rfl⟩
  · have hnext : ∀ reg, writtenBy (decodeTransfer d w) = some reg → nextWrites reg s :=
      fun reg hreg => .inr (.inl ⟨w, writeDescriptor_of_writtenBy hreg ▸ hm⟩)
    exact (hexec _ hx hnext).imp_right .inl
  · obtain ⟨-, hu | ⟨e, -, rfl⟩⟩ := runAction_next_cases hr
    · obtain ⟨reg, haddr, hsize, ⟨hwe, rfl⟩ | ⟨-, rfl⟩⟩ := rawRequest_eq_ok hu
      · exact .inr (.inl ⟨reg, r.wdata, .inr (.inr ⟨r, hm, hwe, haddr.symm, hsize⟩), ⟨rfl, rfl, rfl, rfl⟩⟩)
      · exact .inl ⟨rfl, rfl, rfl, rfl⟩
    · exact .inl ⟨rfl, rfl, rfl, rfl⟩
  · exact absurd hm (hreset c d)

section Writers

variable {s t : State}

theorem step_keeps_cfg (h : step s = .next t) (hreset : ∀ c d, nextMove s ≠ .reset c d) : t.cfg = s.cfg := by
  rcases step_effect h with e | ⟨n, v, -, -, rfl⟩ | ⟨n, -, -, rfl⟩ | ⟨b, -, rfl⟩ | ⟨c, d, hm, -, -⟩
  · exact e.cfg_eq
  · rfl
  · rfl
  · rfl
  · exact absurd hm (hreset c d)

theorem step_keeps_sw (h : step s = .next t) (hreset : ∀ c d, nextMove s ≠ .reset c d)
    (hswitch : ∀ b, nextMove s ≠ .agent (.setSwitch b)) : t.sw = s.sw := by
  rcases step_effect h with e | ⟨n, v, -, -, rfl⟩ | ⟨n, -, -, rfl⟩ | ⟨b, hm, -⟩ | ⟨c, d, hm, -, -⟩
  · exact e.sw_eq
  · rfl
  · rfl
  · exact absurd hm (hswitch b)
  · exact absurd hm (hreset c d)

theorem step_adcMag_writer (h : step s = .next t) (hreset : ∀ c d, nextMove s ≠ .reset c d) {m : Channel}
    (hne : t.adcMag.get m ≠ s.adcMag.get m) : ∃ v, nextMove s = .agent (.complete m v) := by
  rcases step_effect h with e | ⟨n, v, hm, -, rfl⟩ | ⟨n, -, -, rfl⟩ | ⟨b, -, rfl⟩ | ⟨c, d, hm, -, -⟩
  · exact absurd (congrArg (·.get m) e.adcMag_eq) hne
  · by_cases hmn : m = n
    · exact ⟨v, hmn ▸ hm⟩
    · exact absurd (PerChannel.get_set_of_ne _ _ hmn) hne
  · exact absurd rfl hne
  · exact absurd rfl hne
  · exact absurd hm (hreset c d)

theorem step_adcRdy_writer (h : step s = .next t) (hreset : ∀ c d, nextMove s ≠ .reset c d) {m : Channel}
    (hne : t.adcRdy.get m ≠ s.adcRdy.get m) :
    (∃ v, nextMove s = .agent (.complete m v)) ∨ nextMove s = .agent (.invalidate m) := by
  rcases step_effect h with e | ⟨n, v, hm, -, rfl⟩ | ⟨n, hm, -, rfl⟩ | ⟨b, -, rfl⟩ | ⟨c, d, hm, -, -⟩
  · exact absurd (congrArg (·.get m) e.adcRdy_eq) hne
  · by_cases hmn : m = n
    · exact .inl ⟨v, hmn ▸ hm⟩
    · exact absurd (PerChannel.get_set_of_ne _ _ hmn) hne
  · by_cases hmn : m = n
    · exact .inr (hmn ▸ hm)
    · exact absurd (PerChannel.get_set_of_ne _ _ hmn) hne
  · exact absurd rfl hne
  · exact absurd hm (hreset c d)

/-- A write that commands the ADC is a write of one of its two channels. -/
theorem nextWrites_adc {reg : Reg} (hw : nextWrites reg s) (hadc : ¬ ∀ n, reg ≠ .adcChannel n) :
    nextWrites (.adcChannel 0) s ∨ nextWrites (.adcChannel 1) s := by
  push Not at hadc
  obtain ⟨n, rfl⟩ := hadc
  match n, hw with
  | 0, hw => exact .inl hw
  | 1, hw => exact .inr hw

theorem step_adcBusy_writer (h : step s = .next t) (hreset : ∀ c d, nextMove s ≠ .reset c d) {m : Channel}
    (hne : t.adcBusy.get m ≠ s.adcBusy.get m) :
    (∃ v, nextMove s = .agent (.complete m v)) ∨ nextWrites (.adcChannel 0) s ∨ nextWrites (.adcChannel 1) s := by
  rcases step_writes_cases h hreset with same | ⟨reg, w, hw, same⟩ | ⟨n, v, hm, rfl⟩
  · exact absurd (congrArg (·.get m) same.adcBusy) hne
  · refine .inr (nextWrites_adc hw fun hreg => hne ?_)
    rw [same.adcBusy, (afterWrite_adc_of_ne hreg w _).2, takeMove_adcBusy]
  · by_cases hmn : m = n
    · exact .inl ⟨v, hmn ▸ hm⟩
    · exact absurd (PerChannel.get_set_of_ne _ _ hmn) hne

theorem step_adcMode_writer (h : step s = .next t) (hreset : ∀ c d, nextMove s ≠ .reset c d)
    (hne : t.adcMode ≠ s.adcMode) : nextWrites (.adcChannel 0) s ∨ nextWrites (.adcChannel 1) s := by
  rcases step_writes_cases h hreset with same | ⟨reg, w, hw, same⟩ | ⟨n, v, -, rfl⟩
  · exact absurd same.adcMode hne
  · refine nextWrites_adc hw fun hreg => hne ?_
    rw [same.adcMode, (afterWrite_adc_of_ne hreg w _).1, takeMove_adcMode]
  · exact absurd rfl hne

theorem step_gpioData_writer (h : step s = .next t) (hreset : ∀ c d, nextMove s ≠ .reset c d)
    (hne : t.gpioData ≠ s.gpioData) : nextWrites .gpioData s := by
  rcases step_writes_cases h hreset with same | ⟨reg, w, hw, same⟩ | ⟨n, v, -, rfl⟩
  · exact absurd same.gpioData hne
  · by_cases hreg : reg = .gpioData
    · exact hreg ▸ hw
    · exact absurd (same.gpioData.trans (afterWrite_gpioData_of_ne hreg w _)) hne
  · exact absurd rfl hne

theorem step_gpioDir_writer (h : step s = .next t) (hreset : ∀ c d, nextMove s ≠ .reset c d)
    (hne : t.gpioDir ≠ s.gpioDir) : nextWrites .gpioDir s := by
  rcases step_writes_cases h hreset with same | ⟨reg, w, hw, same⟩ | ⟨n, v, -, rfl⟩
  · exact absurd same.gpioDir hne
  · by_cases hreg : reg = .gpioDir
    · exact hreg ▸ hw
    · exact absurd (same.gpioDir.trans (afterWrite_gpioDir_of_ne hreg w _)) hne
  · exact absurd rfl hne

theorem step_historyGrows (h : step s = .next t) (hreset : ∀ c d, nextMove s ≠ .reset c d) :
    HistoryGrows s t := by
  rcases step_effect h with e | ⟨n, v, -, -, rfl⟩ | ⟨n, -, -, rfl⟩ | ⟨b, -, rfl⟩ | ⟨c, d, hm, -, -⟩
  · exact e.historyGrows
  · exact historyGrows_of_same rfl rfl
  · exact historyGrows_of_same rfl rfl
  · exact historyGrows_of_same rfl rfl
  · exact absurd hm (hreset c d)

/-- The environment's own steps raise no fault (spec/60_exceptions.md R231). -/
theorem step_fault_raiser (h : step s = .next t) (hfault : t.fault ≠ none) :
    nextMove s = .agent .seq ∨ (∃ d w, nextMove s = .transfer d w) ∨ ∃ r, nextMove s = .request r := by
  rcases step_next_cases h with ⟨a, hm, -, ha⟩ | ⟨d, w, hm, -, -⟩ | ⟨r, hm, -, -⟩ | ⟨c, d, -, -, rfl⟩
  · cases a with
    | seq => exact .inl hm
    | complete n v =>
      obtain ⟨hf, rfl | rfl⟩ := agentMove_complete_cases ha <;> exact absurd hf hfault
    | invalidate n =>
      obtain ⟨hf, rfl | rfl⟩ := agentMove_invalidate_cases ha <;> exact absurd hf hfault
    | setSwitch b =>
      obtain ⟨hf, rfl⟩ := agentMove_setSwitch_eq ha
      exact absurd hf hfault
  · exact .inr (.inl ⟨d, w, hm⟩)
  · exact .inr (.inr ⟨r, hm⟩)
  · exact absurd rfl hfault

end Writers

end Sys2Proof.Machine

/-! What the single operations answer: the words that reads return, bit by bit, and the next state of each
action of an iteration (spec/40_bus_access.md, spec/44_sequencer.md). -/

namespace Sys2Proof.Machine

/-! ### Reads -/

/-- Under a valid configuration and with no fault a read uses up one draw and records its event. -/
theorem runAction_busReadOnly_of_valid {s : State} (hv : cfgValid s.cfg = true) (hf : s.fault = none)
    (d : Descriptor) (reg : Reg) : runAction (busReadOnly d reg) s = .next { s with
      draws := s.draws + 1
      seqNo := s.seqNo + 1
      events := s.events ++ [⟨s.seqNo, .rd, reg, readWord reg s⟩] } :=
  runAction_of_ok hf (busReadOnly_of_valid hv d reg)

/-- An output bit reads back the latch, every other bit the draw (spec/40_bus_access.md R103). -/
theorem gpioDataWord_getLsbD (data dir : Pattern) (drawn : Word) (i : Nat) :
    (gpioDataWord data dir drawn).getLsbD i = if dir.getLsbD i then data.getLsbD i else drawn.getLsbD i := by
  by_cases hi : i < 32
  · cases hd : dir.getLsbD i <;> simp [gpioDataWord, hi, hd]
  · have hdir : dir.getLsbD i = false := BitVec.getLsbD_of_ge _ _ (by omega)
    rw [BitVec.getLsbD_of_ge _ _ (by omega), hdir, BitVec.getLsbD_of_ge drawn _ (by omega)]
    rfl

/-- Bit 0 of a switch word is the pin (spec/40_bus_access.md R107). -/
theorem switchWord_getLsbD_zero (sw : Bool) (drawn : Word) : (switchWord sw drawn).getLsbD 0 = sw := by
  cases sw <;> simp [switchWord]

/-- Every bit of a switch word above bit 0 is drawn (spec/40_bus_access.md R107). -/
theorem switchWord_getLsbD_of_pos (sw : Bool) (drawn : Word) {i : Nat} (hi : 1 ≤ i) :
    (switchWord sw drawn).getLsbD i = drawn.getLsbD i := by
  have hi0 : i ≠ 0 := by omega
  by_cases h32 : i < 32
  · rw [switchWord, BitVec.getLsbD_or, BitVec.getLsbD_and, BitVec.getLsbD_not]
    cases sw <;> simp [h32, hi0]
  · rw [BitVec.getLsbD_of_ge _ _ (by omega), BitVec.getLsbD_of_ge drawn _ (by omega)]

/-! ### The readiness branch -/

theorem branchReady_readyOk (c : Cfg) (w : Word) :
    branchReady (readyOk c w) = if w &&& c.readyMask ≠ 0#32 then Code.ready else Code.notReady := by
  simp [branchReady, readyOk]

theorem branchReady_bothReady (c : Cfg) (wa wb : Word) :
    branchReady (bothReady c wa wb) =
      if wa &&& c.readyMask ≠ 0#32 ∧ wb &&& c.readyMask ≠ 0#32 then Code.ready else Code.notReady := by
  simp [branchReady, bothReady, readyOk]

/-! ### The polls -/

theorem actPollA_unwritten {s : State} (hs : s.cfg.strategy = .bucket) (hn : s.p.ch = none) :
    actPollA s = .error (.unwritten .ch) := by
  simp only [actPollA, pollAChannel, hs, hn, readPipe_none]

theorem actPollB_bucket {s : State} (hs : s.cfg.strategy = .bucket) : actPollB s = .error (.badState s.fsm) := by
  simp only [actPollB, hs]

/-! ### `CONVERT`, in the fields and formulas of R208 -/

theorem mag_eq_extractLsb' (w : Word) : mag w = w.extractLsb' 0 12 := by
  apply BitVec.eq_of_getLsbD_eq
  intro i hi
  simp [mag, hi]

theorem convVel_eq (m : Magnitude) : convVel m = 300 * m.toNat / 4095 := by
  norm_num [convVel, Config.vFull, Config.maxVal]

theorem convAng_eq (m : Magnitude) : convAng m = -30 + 60 * m.toNat / 4095 := by
  norm_num [convAng, Config.aLo, Config.aHi, Config.maxVal]

section Convert

variable {s : State} {wa wb : Word}

theorem actConvert_bucket (hs : s.cfg.strategy = .bucket) (ha : s.p.sa = some wa) :
    actConvert s = .ok (goto Code.decide { s with p := { s.p with ma := some (mag wa) } }) := by
  simp only [actConvert, hs, ha, readPipe_some]

theorem actConvert_threshold (hs : s.cfg.strategy = .threshold) (ha : s.p.sa = some wa) (hb : s.p.sb = some wb) :
    actConvert s = .ok (goto Code.decide { s with p := { s.p with
      ma := some (mag wa)
      mb := some (mag wb)
      vel := some (convVel (mag wa))
      ang := some (convAng (mag wb)) } }) := by
  simp only [actConvert, hs, ha, hb, readPipe_some]

theorem actConvert_of_sa_unwritten (ha : s.p.sa = none) : actConvert s = .error (.unwritten .sa) := by
  simp only [actConvert, ha, readPipe_none]

/-- `p.ma` stands where `p.sb` is unwritten (log entry 18). -/
theorem actConvert_of_sb_unwritten (hs : s.cfg.strategy = .threshold) (ha : s.p.sa = some wa)
    (hb : s.p.sb = none) :
    actConvert s = .ok (raise (.unwritten .sb) { s with p := { s.p with ma := some (mag wa) } }) := by
  simp only [actConvert, hs, ha, hb, readPipe_some, readPipe_none]

end Convert

/-! ### `DECIDE` and `ACTUATE` -/

/-- A magnitude's level needs no clamp: 4095 is full scale (spec/42_compare_encode.md R160). -/
theorem levelEnc_val (m : Magnitude) : (levelEnc m).val = 10 * m.toNat / 4095 := by
  have hm : m.toNat < 4096 := m.isLt
  simp only [levelEnc, clampLevel, clamp, Config.maxLevel, Config.maxVal]
  omega

section Decide

variable {s : State}

theorem actDecide_bucket {m : Magnitude} (hs : s.cfg.strategy = .bucket) (hm : s.p.ma = some m) :
    actDecide s = .ok (goto Code.actuate { s with p := { s.p with level := some (levelEnc m) } }) := by
  simp only [actDecide, hs, hm, readPipe_some]

theorem actDecide_threshold {v a : ℚ} (hs : s.cfg.strategy = .threshold) (hv : s.p.vel = some v)
    (ha : s.p.ang = some a) :
    actDecide s = .ok (goto Code.actuate { s with p := { s.p with stall := some (stallCmp v a) } }) := by
  simp only [actDecide, hs, hv, ha, readPipe_some]

theorem actDecide_of_ma_unwritten (hs : s.cfg.strategy = .bucket) (hm : s.p.ma = none) :
    actDecide s = .error (.unwritten .ma) := by
  simp only [actDecide, hs, hm, readPipe_none]

theorem actDecide_of_vel_unwritten (hs : s.cfg.strategy = .threshold) (hv : s.p.vel = none) :
    actDecide s = .error (.unwritten .vel) := by
  simp only [actDecide, hs, hv, readPipe_none]

theorem actDecide_of_ang_unwritten {v : ℚ} (hs : s.cfg.strategy = .threshold) (hv : s.p.vel = some v)
    (ha : s.p.ang = none) : actDecide s = .error (.unwritten .ang) := by
  simp only [actDecide, hs, hv, ha, readPipe_some, readPipe_none]

end Decide

section Actuate

variable {s : State}

theorem decisionPattern_bucket {k : Level} (hs : s.cfg.strategy = .bucket) (hk : s.p.level = some k) :
    decisionPattern s = .ok (barPattern k) := by
  simp only [decisionPattern, hs, hk, readPipe_some]

theorem decisionPattern_threshold {b : Bool} (hs : s.cfg.strategy = .threshold) (hb : s.p.stall = some b) :
    decisionPattern s = .ok (stallPattern b) := by
  simp only [decisionPattern, hs, hb, readPipe_some]

theorem actActuate_of_level_unwritten (hs : s.cfg.strategy = .bucket) (hk : s.p.level = none) :
    actActuate s = .error (.unwritten .level) := by
  simp only [actActuate, decisionPattern, hs, hk, readPipe_none]

theorem actActuate_of_stall_unwritten (hs : s.cfg.strategy = .threshold) (hb : s.p.stall = none) :
    actActuate s = .error (.unwritten .stall) := by
  simp only [actActuate, decisionPattern, hs, hb, readPipe_none]

/-- The latch takes back the ten bits that the pattern was widened from (spec/43_gpio_driver.md R183, R184). -/
@[simp] theorem indicatorBits_patternWord (x : Pattern) : indicatorBits (patternWord x) = x := by
  simp [indicatorBits, patternWord]

/-- Under a valid configuration and with no fault, `ACTUATE` writes a decision's pattern once. -/
theorem exec_actuate_of_decision {x : Pattern} (hv : cfgValid s.cfg = true) (hf : s.fault = none)
    (hx : decisionPattern s = .ok x) : exec .actuate s = .next { s with
      p := { s.p with pat := some x }
      gpioData := x
      fsm := Code.pace
      seqNo := s.seqNo + 1
      events := s.events ++ [⟨s.seqNo, .wr, .gpioData, x.setWidth 32⟩] } := by
  rw [exec_actuate, runAction_of_ok hf (actActuate_of_valid hv hx), afterWrite, regWrite_gpioData,
    indicatorBits_patternWord]
  rfl

end Actuate

/-! ### Right after a reset -/

section ResetWith

variable (c : Cfg) (d : ResetDraws)

theorem seqInv_resetWith : SeqInv (State.resetWith c d) := seqInv_of_empty rfl (.inl rfl)

theorem adcInv_resetWith : AdcInv (State.resetWith c d) := ⟨rfl, fun _ => ⟨rfl, rfl⟩, nofun⟩

theorem historyNumbered_resetWith : historyNumbered (State.resetWith c d) := ⟨rfl, rfl⟩

theorem gpioFollowsHistory_resetWith : gpioFollowsHistory (State.resetWith c d) :=
  gpioFollowsHistory_of_noEvents rfl rfl rfl

/-- `INIT` is yet to begin: the history is the empty part of its events. -/
theorem historyInv_resetWith : HistoryInv (State.resetWith c d) where
  init _ := rfl
  iterations h := absurd h (show ¬ 2 < Code.initDir.toNat by decide)
  failed h := by
    rcases h with h | ⟨h, -⟩
    · exact absurd (show Code.initDir = Code.notReady from h) (by decide)
    · exact absurd (show Code.initDir = Code.pace from h) (by decide)

end ResetWith

end Sys2Proof.Machine

namespace Sys2Proof.Proofs.Elements

open Sys2Proof Sys2Proof.Machine

/-- Settles O40, by what `SEQ`'s action does at each stage; every other step leaves the sequencer alone or
begins anew. -/
theorem everyStepKeepsTheSequencerInvariant : Obligations.EveryStepKeepsTheSequencerInvariant := by
  intro s t hinv hstep
  rcases step_sequencer_cases hstep with ⟨-, hv, hx⟩ | ⟨c, d, rfl⟩ | hsame
  · exact exec_decodeState_keeps_seqInv (s := takeMove s) hv (hinv.same ⟨rfl, rfl, rfl⟩) hx
  · exact seqInv_of_empty rfl (.inl rfl)
  · exact hinv.same hsame

/-- Settles O43: of what a step can do, only a write of a GPIO register changes one, and it is then the last
write in the history. -/
theorem everyStepKeepsGpioFollowingHistory : Obligations.EveryStepKeepsGpioFollowingHistory :=
  fun _ _ => step_keeps_gpioFollowsHistory

/-- Settles O12: the bits of the word by `gpioDataWord_getLsbD`; no bit from 10 on has a direction. -/
theorem rdGpioDataReadsBackDrivenBits : Obligations.RdGpioDataReadsBackDrivenBits := by
  intro s hv hf
  refine ⟨fun _ => rfl, readWord .gpioData s, runAction_busReadOnly_of_valid hv hf _ _,
    fun i _ => gpioDataWord_getLsbD _ _ _ i, fun i hi => ?_⟩
  have hdir : s.gpioDir.getLsbD i = false := BitVec.getLsbD_of_ge _ _ hi
  rw [readWord, regValue, gpioDataWord_getLsbD, hdir]
  rfl

/-- Settles O38, one element at a time. -/
theorem eachElementHasItsWriters : Obligations.EachElementHasItsWriters := by
  intro s t h hreset
  refine ⟨step_keeps_cfg h hreset, fun hseq => ?_, step_keeps_sw h hreset, fun _ => step_adcMag_writer h hreset,
    fun _ => step_adcRdy_writer h hreset, fun _ => step_adcBusy_writer h hreset, step_adcMode_writer h hreset,
    step_gpioData_writer h hreset, step_gpioDir_writer h hreset, step_historyGrows h hreset, step_fault_raiser h⟩
  have same := step_same_of_not_seq h hseq hreset
  exact ⟨same.fsm, same.p⟩

/-- Settles O14: the read of the direction register answers the draw itself. -/
theorem rdGpioDirReturnsADraw : Obligations.RdGpioDirReturnsADraw :=
  fun _ hv hf => ⟨fun _ => rfl, runAction_busReadOnly_of_valid hv hf _ _⟩

/-- Settles O16: the bits of the word by `switchWord`'s two lemmas, and what `SET` changes. -/
theorem rdSwitchSamplesThePin : Obligations.RdSwitchSamplesThePin := by
  constructor
  · intro s hv hf
    exact ⟨fun _ => rfl, readWord .switchInput s, runAction_busReadOnly_of_valid hv hf _ _,
      switchWord_getLsbD_zero _ _, fun _ => switchWord_getLsbD_of_pos _ _⟩
  · intro b s t h
    obtain ⟨-, rfl⟩ := agentMove_setSwitch_eq h
    exact ⟨rfl, rfl⟩

/-- Settles O23, by strategy: `POLL_A` reads its channel as `RD_ADC` does and branches on the word. -/
theorem pollAReadsTheFirstChannel : Obligations.PollAReadsTheFirstChannel := by
  intro s hv hf
  refine ⟨fun n hn => ⟨readWord (.adcChannel n) s, runAction_busReadOnly_of_valid hv hf _ _, ?_⟩, fun hs hn => ?_⟩
  · rcases hn with ⟨hs, hch⟩ | ⟨hs, rfl⟩
    · rw [exec_pollA, runAction_of_ok hf (actPollA_of_valid hv hs hch), branchReady_readyOk, hs]
      rfl
    · rw [exec_pollA, runAction_of_ok hf (actPollA_threshold_of_valid hv hs), hs]
      rfl
  · exact runAction_of_error hf (actPollA_unwritten hs hn)

/-- Settles O24, by whether `p.sa` is written: the access comes first and stands either way. -/
theorem pollBReadsTheSecondChannel : Obligations.PollBReadsTheSecondChannel := by
  intro s hv hf
  refine ⟨fun hs => ⟨readWord (.adcChannel s.cfg.angCh) s, runAction_busReadOnly_of_valid hv hf _ _,
    fun wa ha => ?_, fun ha => ?_⟩, fun hs => runAction_of_error hf (actPollB_bucket hs)⟩
  · rw [exec_pollB, runAction_of_ok hf (actPollB_of_valid hv hs ha), branchReady_bothReady]
    rfl
  · have hfault : (afterPollB s).fault = none := hf
    rw [exec_pollB, runAction_of_ok hf (actPollB_unwritten_of_valid hv hs ha), raise, hfault]
    rfl

/-- Settles O26, by which of the two polled words are written. -/
theorem convertExtractsAndConverts : Obligations.ConvertExtractsAndConverts := by
  intro s hf
  refine ⟨fun wa hs ha => ?_, fun wa wb hs ha hb => ?_, fun ha => ?_, fun wa hs ha hb => ?_⟩
  · rw [exec_convertState, runAction_of_ok hf (actConvert_bucket hs ha), mag_eq_extractLsb']
    rfl
  · rw [exec_convertState, runAction_of_ok hf (actConvert_threshold hs ha hb), convVel_eq, convAng_eq,
      mag_eq_extractLsb', mag_eq_extractLsb']
    rfl
  · exact runAction_of_error hf (actConvert_of_sa_unwritten ha)
  · rw [exec_convertState, runAction_of_ok hf (actConvert_of_sb_unwritten hs ha hb), mag_eq_extractLsb']
    simp [raise, hf]

/-- Settles O27, by strategy and by which of the registers it reads are written. -/
theorem decideAppliesTheStrategy : Obligations.DecideAppliesTheStrategy := by
  intro s hf
  refine ⟨fun m hs hm => ⟨levelEnc m, levelEnc_val m, ?_⟩, fun v a hs hv ha => ?_, fun hs hm => ?_,
    fun hs hv => ?_, fun v hs hv ha => ?_⟩
  · exact runAction_of_ok hf (actDecide_bucket hs hm)
  · exact runAction_of_ok hf (actDecide_threshold hs hv ha)
  · exact runAction_of_error hf (actDecide_of_ma_unwritten hs hm)
  · exact runAction_of_error hf (actDecide_of_vel_unwritten hs hv)
  · exact runAction_of_error hf (actDecide_of_ang_unwritten hs hv ha)

/-- Settles O28: the decision of either strategy gives the pattern that is written. -/
theorem actuateWritesThePatternOnce : Obligations.ActuateWritesThePatternOnce := by
  intro s hv hf
  refine ⟨fun x hx => exec_actuate_of_decision hv hf ?_, fun hs hk => ?_, fun hs hb => ?_⟩
  · rcases hx with ⟨k, hs, hk, rfl⟩ | ⟨b, hs, hb, rfl⟩
    · exact decisionPattern_bucket hs hk
    · exact decisionPattern_threshold hs hb
  · exact runAction_of_error hf (actActuate_of_level_unwritten hs hk)
  · exact runAction_of_error hf (actActuate_of_stall_unwritten hs hb)

/-- Settles O32: `SET` always answers, and `takeMove` has the agenda and the tick. -/
theorem switchStepSetsThePin : Obligations.SwitchStepSetsThePin := by
  intro b s hv hf hm
  rw [step, hm]
  exact guardCfg_eq_next_iff.2 ⟨hv, runAction_of_ok (act := setSwitch b) (s := takeMove s) hf rfl⟩

/-- Settles O34: a reset is `restart`, whatever the state was. -/
theorem resetRestoresEveryElement : Obligations.ResetRestoresEveryElement := by
  intro s c d hc hm
  rw [step, hm]
  exact guardCfg_eq_next_iff.2 ⟨hc, rfl⟩

/-- Settles O44, one invariant at a time. -/
theorem resetMeetsTheInvariants : Obligations.ResetMeetsTheInvariants :=
  ⟨fun c d => ⟨seqInv_resetWith c d, adcInv_resetWith c d, historyNumbered_resetWith c d,
    gpioFollowsHistory_resetWith c d, historyInv_resetWith c d⟩, rfl⟩

end Sys2Proof.Proofs.Elements

/-! The register space (spec/20_memory.md R50 to R60, spec/30_encoding.md R70, R71): the operation a step runs,
which address is which register, raw requests, the word of a sample, the numbering of the history, and that no
run faults. -/

namespace Sys2Proof.Machine

/-! ### The descriptors that reach a register -/

/-- The descriptor that reads a register (spec/30_encoding.md R71), beside `writeDescriptor`. -/
def readDescriptor : Reg → Descriptor
  | .adcChannel n => rdAdcDescriptor n
  | .gpioData => 0x20#8
  | .gpioDir => 0x21#8
  | .switchInput => 0x40#8

/-- Every mapped descriptor reads or writes one register (spec/30_encoding.md R71). -/
theorem exists_reg_of_mapped {d : Descriptor} (h : d ∈ mappedDescriptors) :
    ∃ reg, d = readDescriptor reg ∨ d = writeDescriptor reg := by
  simp only [mappedDescriptors, List.mem_cons, List.not_mem_nil, or_false] at h
  rcases h with rfl | rfl | rfl | rfl | rfl | rfl | rfl | rfl | rfl | rfl
  · exact ⟨.adcChannel 0, .inl rfl⟩
  · exact ⟨.adcChannel 1, .inl rfl⟩
  · exact ⟨.adcChannel 0, .inr rfl⟩
  · exact ⟨.adcChannel 1, .inr rfl⟩
  · exact ⟨.gpioData, .inl rfl⟩
  · exact ⟨.gpioData, .inr rfl⟩
  · exact ⟨.gpioDir, .inl rfl⟩
  · exact ⟨.gpioDir, .inr rfl⟩
  · exact ⟨.switchInput, .inl rfl⟩
  · exact ⟨.switchInput, .inr rfl⟩

section Registers

variable (reg : Reg) (w : Word) (s : State)

theorem descriptorWrites_readDescriptor : descriptorWrites (readDescriptor reg) = false := by
  match reg with
  | .adcChannel 0 | .adcChannel 1 | .gpioData | .gpioDir | .switchInput => rfl

theorem descriptorWrites_writeDescriptor : descriptorWrites (writeDescriptor reg) = true := by
  match reg with
  | .adcChannel 0 | .adcChannel 1 | .gpioData | .gpioDir | .switchInput => rfl

theorem exec_readDescriptor : exec (decodeTransfer (readDescriptor reg) w) s =
    runAction (busReadOnly (readDescriptor reg) reg) s := by
  match reg with
  | .adcChannel 0 | .adcChannel 1 | .gpioData | .gpioDir | .switchInput => rfl

theorem exec_writeDescriptor : exec (decodeTransfer (writeDescriptor reg) w) s =
    runAction (busWrite (writeDescriptor reg) reg w) s := by
  match reg with
  | .adcChannel 0 | .adcChannel 1 | .gpioData | .gpioDir | .switchInput => rfl

/-- Row by row of the address map (spec/20_memory.md R51). -/
theorem descriptorAddr_readDescriptor (c : Cfg) :
    descriptorAddr c (readDescriptor reg) = some (registerAddr c reg) := by
  match reg with
  | .adcChannel 0 | .adcChannel 1 | .gpioDir => rfl
  | .gpioData => exact congrArg some (BitVec.add_zero c.gpioBase)
  | .switchInput => exact congrArg some (BitVec.add_zero c.switchBase)

/-- The direction is no part of the address (spec/30_encoding.md R70). -/
theorem descriptorAddr_writeDescriptor (c : Cfg) :
    descriptorAddr c (writeDescriptor reg) = some (registerAddr c reg) := by
  rw [← descriptorAddr_readDescriptor]
  match reg with
  | .adcChannel 0 | .adcChannel 1 | .gpioData | .gpioDir | .switchInput => rfl

end Registers

/-! ### The operation that a step runs -/

theorem decodeState_wellFormed : ∀ c : StateCode, (decodeState c).wellFormed = true := by decide

theorem eq_of_and_adcMask : ∀ {d : Descriptor}, d &&& 0xFE#8 = 0x00#8 → d = 0x00#8 ∨ d = 0x01#8 := by decide

/-- A descriptor off the map passes every line of the decoder (spec/30_encoding.md R71). -/
theorem decodeTransfer_of_not_mapped {d : Descriptor} (h : d ∉ mappedDescriptors) (w : Word) :
    decodeTransfer d w = .unmapped d (if descriptorWrites d then w else 0#32) := by
  simp only [mappedDescriptors, List.mem_cons, List.not_mem_nil, or_false, not_or] at h
  obtain ⟨h00, h01, h80, h81, h20, hA0, h21, hA1, h40, hC0⟩ := h
  have hadc : d &&& 0xFE#8 ≠ 0x00#8 := fun hd => (eq_of_and_adcMask hd).elim h00 h01
  simp only [decodeTransfer, hadc, h80, h81, h20, hA0, h21, hA1, h40, hC0, if_false]

theorem decodeTransfer_wellFormed (d : Descriptor) (w : Word) : (decodeTransfer d w).wellFormed = true := by
  by_cases hd : d ∈ mappedDescriptors
  · obtain ⟨reg, rfl | rfl⟩ := exists_reg_of_mapped hd <;>
      match reg with
      | .adcChannel 0 | .adcChannel 1 | .gpioData | .gpioDir | .switchInput => rfl
  · rw [decodeTransfer_of_not_mapped hd]
    change (!mappedDescriptors.contains d &&
      (descriptorWrites d || (if descriptorWrites d then w else 0#32) == 0#32)) = true
    cases descriptorWrites d <;> simp [hd]

theorem fetched_wellFormed {m : Move} {s : State} {i : Instr} (h : fetched m s = some i) :
    i.wellFormed = true := by
  match m, h with
  | .agent .seq, rfl => exact decodeState_wellFormed s.fsm
  | .transfer d w, rfl => exact decodeTransfer_wellFormed d w

theorem step_of_fetched {s : State} {i : Instr} (hv : cfgValid s.cfg = true)
    (hi : fetched (nextMove s) s = some i) : step s = exec i (takeMove s) :=
  makeMove_of_fetched (s := takeMove s) hv (by rw [← hi]; cases nextMove s <;> rfl)

theorem step_of_request {s : State} {r : BusRequest} (hv : cfgValid s.cfg = true) (hm : nextMove s = .request r) :
    step s = runAction (rawRequest r) (takeMove s) := by
  simp only [step, hm, makeMove, guardCfg, takeMove_cfg, hv, if_true]

/-! ### Which address is which register -/

section Addresses

variable {c : Cfg}

/-- No address of the map wraps under a valid configuration (spec/20_memory.md R51). -/
theorem registerAddr_adcChannel_toNat (hv : cfgValid c = true) (n : Channel) :
    (registerAddr c (.adcChannel n)).toNat = c.adcBase.toNat + 4 * n.val := by
  obtain ⟨-, -, hadc, -⟩ := cfgValid_iff.1 hv
  obtain ⟨-, hfits⟩ := windowValid_iff.1 hadc
  have hn : n.val < 2 := n.isLt
  simp only [registerAddr, BitVec.toNat_add, BitVec.toNat_mul, BitVec.toNat_ofNat]
  omega

theorem registerAddr_gpioDir_toNat (hv : cfgValid c = true) :
    (registerAddr c .gpioDir).toNat = c.gpioBase.toNat + 4 := by
  obtain ⟨-, -, -, hgpio, -⟩ := cfgValid_iff.1 hv
  obtain ⟨-, hfits⟩ := windowValid_iff.1 hgpio
  simp only [registerAddr, BitVec.toNat_add, BitVec.toNat_ofNat]
  omega

theorem registerAddr_aligned (hv : cfgValid c = true) (reg : Reg) : (registerAddr c reg).toNat % 4 = 0 := by
  obtain ⟨-, -, hadc, hgpio, hswitch, -⟩ := cfgValid_iff.1 hv
  cases reg with
  | adcChannel n =>
    have halign := windowValid_aligned hadc
    rw [registerAddr_adcChannel_toNat hv]
    omega
  | gpioData => exact windowValid_aligned hgpio
  | gpioDir =>
    have halign := windowValid_aligned hgpio
    rw [registerAddr_gpioDir_toNat hv]
    omega
  | switchInput => exact windowValid_aligned hswitch

/-- Two registers of one window have two offsets, and two windows are disjoint (spec/20_memory.md R51). -/
theorem registerAddr_injective (hv : cfgValid c = true) {reg reg' : Reg}
    (h : registerAddr c reg = registerAddr c reg') : reg = reg' := by
  have hnat := congrArg BitVec.toNat h
  obtain ⟨-, -, -, -, -, hadcGpio, hadcSwitch, hgpioSwitch, -⟩ := cfgValid_iff.1 hv
  simp only [windowsDisjoint, Bool.or_eq_true, decide_eq_true_eq] at hadcGpio hadcSwitch hgpioSwitch
  have hdata : (registerAddr c .gpioData).toNat = c.gpioBase.toNat := rfl
  have hpin : (registerAddr c .switchInput).toNat = c.switchBase.toNat := rfl
  have hdir := registerAddr_gpioDir_toNat hv
  have hadc := registerAddr_adcChannel_toNat hv
  cases reg with
  | adcChannel n =>
    have hn := hadc n
    cases reg' with
    | adcChannel m =>
      have hm := hadc m
      exact congrArg Reg.adcChannel (Fin.ext (by omega))
    | gpioData | gpioDir | switchInput => omega
  | gpioData =>
    cases reg' with
    | gpioData => rfl
    | adcChannel m => have hm := hadc m; omega
    | gpioDir | switchInput => omega
  | gpioDir =>
    cases reg' with
    | gpioDir => rfl
    | adcChannel m => have hm := hadc m; omega
    | gpioData | switchInput => omega
  | switchInput =>
    cases reg' with
    | switchInput => rfl
    | adcChannel m => have hm := hadc m; omega
    | gpioData | gpioDir => omega

theorem mem_allRegs (reg : Reg) : reg ∈ allRegs := by
  match reg with
  | .adcChannel 0 | .adcChannel 1 | .gpioData | .gpioDir | .switchInput => decide

theorem registerAt_eq_none_iff {addr : Word} : registerAt c addr = none ↔ ∀ reg, registerAddr c reg ≠ addr := by
  simp only [registerAt, List.find?_eq_none, beq_iff_eq]
  exact ⟨fun h reg => h reg (mem_allRegs reg), fun h reg _ => h reg⟩

theorem registerAt_registerAddr (hv : cfgValid c = true) (reg : Reg) :
    registerAt c (registerAddr c reg) = some reg := by
  cases hfind : registerAt c (registerAddr c reg) with
  | none => exact absurd rfl (registerAt_eq_none_iff.1 hfind reg)
  | some reg' => rw [registerAddr_injective hv (registerAddr_of_registerAt hfind)]

end Addresses

/-! ### Raw requests -/

/-- The access that a raw request is (spec/20_memory.md R52). -/
def requestAccess (r : BusRequest) : Access := ⟨none, some r.addr, r.size⟩

theorem requestAccess_unsupported_iff {r : BusRequest} :
    (requestAccess r).unsupported = true ↔ r.size ≠ 4 ∨ r.addr.toNat % 4 ≠ 0 := by
  simp [requestAccess, Access.unsupported]

theorem requestAccess_supported {r : BusRequest} (hsize : r.size = 4) (haddr : r.addr.toNat % 4 = 0) :
    (requestAccess r).unsupported = false := by
  simp [requestAccess, Access.unsupported, hsize, haddr]

section Requests

variable {r : BusRequest} {s : State}

/-- Whether a register is at the address or not, the size and the alignment are looked at first
(spec/40_bus_access.md R110). -/
theorem rawRequest_of_unsupported (h : (requestAccess r).unsupported = true) :
    rawRequest r s = .error (.unsupportedAccess none (some r.addr) r.size) := by
  have hu : Access.unsupported ⟨none, some r.addr, r.size⟩ = true := h
  cases hreg : registerAt s.cfg r.addr with
  | none => simp only [rawRequest, hreg, unmappedAccess, hu, if_true]
  | some reg => cases hwe : r.we <;> simp [rawRequest, hreg, hwe, performRead, performWrite, hu]

theorem rawRequest_of_unlisted (h : (requestAccess r).unsupported = false) (hreg : registerAt s.cfg r.addr = none) :
    rawRequest r s = .error (.unmapped none (some r.addr)) := by
  have hu : Access.unsupported ⟨none, some r.addr, r.size⟩ = false := h
  simp [rawRequest, hreg, unmappedAccess, hu]

theorem rawRequest_write {reg : Reg} (h : (requestAccess r).unsupported = false)
    (hreg : registerAt s.cfg r.addr = some reg) (hwe : r.we = true) :
    rawRequest r s = .ok (afterWrite reg r.wdata s) := by
  have hwrite : performWrite ⟨none, some r.addr, r.size⟩ reg r.wdata s = .ok (afterWrite reg r.wdata s) :=
    performWrite_eq_ok_iff.2 ⟨h, rfl⟩
  simp only [rawRequest, hreg, hwe, hwrite, if_true]

theorem rawRequest_read {reg : Reg} (h : (requestAccess r).unsupported = false)
    (hreg : registerAt s.cfg r.addr = some reg) (hwe : r.we = false) :
    rawRequest r s = .ok (afterRead reg s) := by
  have hread : performRead ⟨none, some r.addr, r.size⟩ reg s = .ok (readWord reg s, afterRead reg s) :=
    performRead_eq_ok_iff.2 ⟨h, rfl, rfl⟩
  simp only [rawRequest, hreg, hwe, hread, Bool.false_eq_true, if_false]

end Requests

/-- Two actions that do the same in a state are run the same. -/
theorem runAction_congr {act act' : State → Except FaultReason State} {s : State} (h : act s = act' s) :
    runAction act s = runAction act' s := by
  simp only [runAction, h]

/-! ### An access off the map -/

/-- `base(RGN) + 4·IDX`, region by region (spec/30_encoding.md R70). -/
theorem descriptorAddr_eq (c : Cfg) (d : Descriptor) : descriptorAddr c d =
    if descriptorRegion d = 0#2 then some (c.adcBase + 4#32 * (descriptorIndex d).setWidth 32)
    else if descriptorRegion d = 1#2 then some (c.gpioBase + 4#32 * (descriptorIndex d).setWidth 32)
    else if descriptorRegion d = 2#2 then some (c.switchBase + 4#32 * (descriptorIndex d).setWidth 32)
    else none := by
  unfold descriptorAddr regionBase
  split_ifs <;> rfl

/-! ### The word of a sample (spec/40_bus_access.md R100) -/

/-- The magnitude field, put back in its place, is all that `MAG_MASK` leaves. -/
theorem and_magMask (w : Word) : w &&& Config.magMask = (mag w).setWidth 32 := by
  apply BitVec.eq_of_getLsbD_eq
  intro i hi
  rw [mag, BitVec.getLsbD_setWidth, BitVec.getLsbD_setWidth, BitVec.getLsbD_and, magMask_getLsbD]
  by_cases h12 : i < 12 <;> simp [h12, hi]

section Sample

variable {c : Cfg} (m : Magnitude) (drawn : Word)

theorem sampleWord_ready_and_magMask (h : readyMaskValid c.adcReadyMask = true) :
    sampleWord c true m drawn &&& Config.magMask = m.setWidth 32 := by
  rw [and_magMask, mag_sampleWord_ready h]

theorem sampleWord_notReady_and_magMask :
    sampleWord c false m drawn &&& Config.magMask = drawn &&& Config.magMask := by
  apply BitVec.eq_of_getLsbD_eq
  intro i hi
  rw [BitVec.getLsbD_and, sampleWord_getLsbD c false m drawn hi, BitVec.getLsbD_and, magMask_getLsbD]
  by_cases h12 : i < 12 <;> simp [h12]

theorem sampleWord_and_rest (rdy : Bool) :
    sampleWord c rdy m drawn &&& ~~~(c.adcReadyMask ||| Config.magMask) =
      drawn &&& ~~~(c.adcReadyMask ||| Config.magMask) := by
  refine sampleWord_and_of_disjoint ?_ ?_ rdy m drawn <;>
  · apply BitVec.eq_of_getLsbD_eq
    intro i hi
    simp only [BitVec.getLsbD_and, BitVec.getLsbD_not, BitVec.getLsbD_or, BitVec.getLsbD_zero]
    cases c.adcReadyMask.getLsbD i <;> cases Config.magMask.getLsbD i <;> simp

end Sample

/-! ### The numbering of the history (spec/20_memory.md R56) -/

theorem historyNumbered_congr {s t : State} (h : historyNumbered s) (hseq : t.seqNo = s.seqNo)
    (hevents : t.events = s.events) : historyNumbered t := by
  unfold historyNumbered
  rw [hseq, hevents]
  exact h

theorem historyNumbered_concat {s t : State} (h : historyNumbered s) {e : BusEvent} (he : e.seqNo = s.seqNo)
    (hseq : t.seqNo = s.seqNo + 1) (hevents : t.events = s.events ++ [e]) : historyNumbered t := by
  obtain ⟨hcount, hnumbers⟩ := h
  unfold historyNumbered
  rw [hseq, hevents, List.length_append, List.length_singleton, List.map_append, hnumbers, List.range_succ,
    ← hcount, ← he]
  exact ⟨rfl, rfl⟩

theorem DeviceEffect.historyNumbered {s t : State} (e : DeviceEffect s t) (h : historyNumbered s) :
    Sys2Proof.Machine.historyNumbered t := by
  rcases e with e | ⟨reg, e⟩ | ⟨reg, w, e⟩
  · exact historyNumbered_congr h e.seqNo e.events
  · exact historyNumbered_concat h rfl e.seqNo e.events
  · exact historyNumbered_concat h rfl (e.seqNo.trans (afterWrite_seqNo reg w s))
      (e.events.trans (afterWrite_events reg w s))

theorem step_keeps_historyNumbered {s t : State} (h : historyNumbered s) (ht : step s = .next t) :
    historyNumbered t := by
  have htake : historyNumbered (takeMove s) := historyNumbered_congr h rfl rfl
  rcases step_effect ht with e | ⟨n, v, -, -, rfl⟩ | ⟨n, -, -, rfl⟩ | ⟨b, -, rfl⟩ | ⟨c, d, -, -, rfl⟩
  · exact e.historyNumbered htake
  · exact historyNumbered_congr htake rfl rfl
  · exact historyNumbered_congr htake rfl rfl
  · exact historyNumbered_congr htake rfl rfl
  · exact ⟨rfl, rfl⟩

/-! ### No stage of an iteration faults (spec/44_sequencer.md R216) -/

@[simp] theorem afterWrite_fault (reg : Reg) (w : Word) (s : State) : (afterWrite reg w s).fault = s.fault :=
  regWrite_fault reg w s

/-- The action answers a state without raising a fault. -/
def ActsCleanly (act : State → Except FaultReason State) (s : State) : Prop :=
  ∃ t, act s = .ok t ∧ t.fault = s.fault

theorem runAction_of_actsCleanly {act : State → Except FaultReason State} {s : State} (hf : s.fault = none)
    (h : ActsCleanly act s) : ∃ t, runAction act s = .next t ∧ t.fault = none := by
  obtain ⟨t, ht, hfault⟩ := h
  exact ⟨t, runAction_of_ok hf ht, hfault.trans hf⟩

section Stages

variable {s : State} (hv : cfgValid s.cfg = true) (h : SeqInv s)

include hv in
theorem actInitDir_actsCleanly : ActsCleanly actInitDir s :=
  ⟨_, actInitDir_of_valid hv, afterWrite_fault _ _ _⟩

include hv in
theorem actInitArm0_actsCleanly : ActsCleanly actInitArm0 s :=
  ⟨_, actInitArm0_of_valid hv, afterWrite_fault _ _ _⟩

include hv in
theorem actInitArm1_actsCleanly : ActsCleanly actInitArm1 s :=
  ⟨_, actInitArm1_of_valid hv, afterWrite_fault _ _ _⟩

include hv h

/-- `THRESHOLD` does not use `POLL_SEL`. -/
theorem actPollSel_actsCleanly (hf : s.fsm = Code.pollSel) : ActsCleanly actPollSel s := by
  have hcode := h.code
  cases hs : s.cfg.strategy with
  | bucket => exact ⟨_, actPollSel_of_valid hv hs, rfl⟩
  | threshold =>
    rw [hf, hs] at hcode
    cases hcode

theorem actPollA_actsCleanly (hf : s.fsm = Code.pollA) : ActsCleanly actPollA s := by
  have hstage := h.stage_at hf
  cases hs : s.cfg.strategy with
  | bucket =>
    rw [hs] at hstage
    obtain ⟨b, n, hp⟩ := writtenExactly_sel_ch hstage
    exact ⟨_, actPollA_of_valid hv hs (by rw [hp]), rfl⟩
  | threshold => exact ⟨_, actPollA_threshold_of_valid hv hs, rfl⟩

/-- `BUCKET` does not use `POLL_B`. -/
theorem actPollB_actsCleanly (hf : s.fsm = Code.pollB) : ActsCleanly actPollB s := by
  have hcode := h.code
  obtain ⟨w, hp⟩ := writtenExactly_sa (h.stage_at hf)
  cases hs : s.cfg.strategy with
  | bucket =>
    rw [hf, hs] at hcode
    cases hcode
  | threshold => exact ⟨_, actPollB_of_valid hv hs (by rw [hp]), rfl⟩

omit hv in
theorem actConvert_actsCleanly (hf : s.fsm = Code.convert) : ActsCleanly actConvert s := by
  have hpolled : s.p.writtenExactly (polledRegs s.cfg.strategy) = true := h.stage_at hf
  cases hs : s.cfg.strategy with
  | bucket =>
    rw [hs] at hpolled
    obtain ⟨b, n, w, hp⟩ := writtenExactly_polled_bucket hpolled
    exact ⟨_, actConvert_bucket hs (by rw [hp]), rfl⟩
  | threshold =>
    rw [hs] at hpolled
    obtain ⟨wa, wb, hp⟩ := writtenExactly_polled_threshold hpolled
    exact ⟨_, actConvert_threshold hs (by rw [hp]) (by rw [hp]), rfl⟩

omit hv in
theorem actDecide_actsCleanly (hf : s.fsm = Code.decide) : ActsCleanly actDecide s := by
  have hconverted : s.p.writtenExactly (convertedRegs s.cfg.strategy) = true := h.stage_at hf
  cases hs : s.cfg.strategy with
  | bucket =>
    rw [hs] at hconverted
    obtain ⟨b, n, w, m, hp⟩ := writtenExactly_converted_bucket hconverted
    exact ⟨_, actDecide_bucket hs (by rw [hp]), rfl⟩
  | threshold =>
    rw [hs] at hconverted
    obtain ⟨wa, wb, ma, mb, v, a, hp⟩ := writtenExactly_converted_threshold hconverted
    exact ⟨_, actDecide_threshold hs (by rw [hp]) (by rw [hp]), rfl⟩

omit hv in
/-- At `ACTUATE` the decision of the strategy stands in the pipeline. -/
theorem exists_decisionPattern (hf : s.fsm = Code.actuate) : ∃ x, decisionPattern s = .ok x := by
  have hdecided : s.p.writtenExactly (decidedRegs s.cfg.strategy) = true := h.stage_at hf
  cases hs : s.cfg.strategy with
  | bucket =>
    rw [hs] at hdecided
    obtain ⟨b, n, w, m, k, hp⟩ := writtenExactly_decided_bucket hdecided
    exact ⟨_, decisionPattern_bucket hs (by rw [hp])⟩
  | threshold =>
    rw [hs] at hdecided
    obtain ⟨wa, wb, ma, mb, v, a, b, hp⟩ := writtenExactly_decided_threshold hdecided
    exact ⟨_, decisionPattern_threshold hs (by rw [hp])⟩

theorem actActuate_actsCleanly (hf : s.fsm = Code.actuate) : ActsCleanly actActuate s := by
  obtain ⟨x, hx⟩ := exists_decisionPattern h hf
  exact ⟨_, actActuate_of_valid hv hx, afterWrite_fault _ _ _⟩

/-- Whatever stage the sequencer is at, its step answers a state without a fault. -/
theorem exec_decodeState_progress (hfault : s.fault = none) :
    ∃ t, exec (decodeState s.fsm) s = .next t ∧ t.fault = none := by
  rcases codeAllowed_cases h.code with hf | hf | hf | hf | hf | hf | hf | hf | hf | hf | hf | hf <;> rw [hf]
  · exact runAction_of_actsCleanly hfault (actInitDir_actsCleanly hv)
  · exact runAction_of_actsCleanly hfault (actInitArm0_actsCleanly hv)
  · exact runAction_of_actsCleanly hfault (actInitArm1_actsCleanly hv)
  · exact runAction_of_actsCleanly hfault (actPollSel_actsCleanly hv h hf)
  · exact runAction_of_actsCleanly hfault (actPollA_actsCleanly hv h hf)
  · exact runAction_of_actsCleanly hfault (actPollB_actsCleanly hv h hf)
  · exact runAction_of_actsCleanly (act := actReady) hfault ⟨_, rfl, rfl⟩
  · exact runAction_of_actsCleanly (act := actNotReady) hfault ⟨_, rfl, rfl⟩
  · exact runAction_of_actsCleanly hfault (actConvert_actsCleanly h hf)
  · exact runAction_of_actsCleanly hfault (actDecide_actsCleanly h hf)
  · exact runAction_of_actsCleanly hfault (actActuate_actsCleanly hv h hf)
  · exact runAction_of_actsCleanly (act := actPace) hfault ⟨_, rfl, rfl⟩

/-- A step of any agent answers a state without a fault; the environment's steps never raise one. -/
theorem agentMove_progress (hfault : s.fault = none) (m : AgentMove) :
    ∃ t, agentMove m s = .next t ∧ t.fault = none := by
  cases m with
  | seq => exact exec_decodeState_progress hv h hfault
  | complete n v =>
    refine runAction_of_actsCleanly (act := offerComplete n v) hfault ⟨_, rfl, ?_⟩
    split <;> rfl
  | invalidate n =>
    refine runAction_of_actsCleanly (act := offerInvalidate n) hfault ⟨_, rfl, ?_⟩
    split <;> rfl
  | setSwitch b => exact runAction_of_actsCleanly (act := setSwitch b) hfault ⟨_, rfl, rfl⟩

end Stages

/-! ### Runs -/

/-- What every state of a run under `c` meets. -/
structure RunInv (c : Cfg) (s : State) : Prop where
  fault : s.fault = none
  cfg : s.cfg = c
  valid : cfgValid c = true
  seq : SeqInv s

theorem RunInv.progress {c : Cfg} {s : State} (h : RunInv c s) (m : AgentMove) :
    ∃ t, step (choose m s) = .next t ∧ t.fault = none := by
  have hv : cfgValid s.cfg = true := h.cfg ▸ h.valid
  rw [step_choose hv]
  exact agentMove_progress (s := { s with agenda := [], tick := s.tick + 1 }) hv (h.seq.same ⟨rfl, rfl, rfl⟩)
    h.fault m

theorem RunInv.move {c : Cfg} {s t : State} (h : RunInv c s) {m : AgentMove} (ht : step (choose m s) = .next t) :
    RunInv c t := by
  have hfault : t.fault = none := by
    obtain ⟨u, hu, hclean⟩ := h.progress m
    rw [hu, Host.Outcome.next.injEq] at ht
    exact ht ▸ hclean
  have hmove : ∀ c d, nextMove (choose m s) ≠ .reset c d := fun c d => show Move.agent m ≠ .reset c d by simp
  have hcfg : t.cfg = s.cfg := step_keeps_cfg (s := choose m s) ht hmove
  have hseq : SeqInv t :=
    Sys2Proof.Proofs.Elements.everyStepKeepsTheSequencerInvariant (choose m s) t (h.seq.same ⟨rfl, rfl, rfl⟩) ht
  exact ⟨hfault, hcfg.trans h.cfg, h.valid, hseq⟩

theorem RunsTo.runInv {c : Cfg} {n : Nat} {s : State} (h : RunsTo c n s) : RunInv c s := by
  induction h with
  | reset d valid => exact ⟨rfl, rfl, valid, seqInv_resetWith c d⟩
  | move m _ moved ih => exact ih.move moved

end Sys2Proof.Machine

namespace Sys2Proof.Proofs.Memory

open Sys2Proof Sys2Proof.Machine

/-- Settles O9: the read records the channel's sample word, whose fields `sampleWord`'s lemmas give. -/
theorem rdAdcReturnsOneSample : Obligations.RdAdcReturnsOneSample := by
  intro n s hv hf
  obtain ⟨hmask, -⟩ := cfgValid_iff.1 hv
  refine ⟨fun x => ?_, readWord (.adcChannel n) s, runAction_busReadOnly_of_valid hv hf _ _,
    sampleWord_and_readyMask hmask _ _ _, fun hrdy => ?_, fun hrdy => ?_, sampleWord_and_rest _ _ _⟩
  · match n with
    | 0 | 1 => rfl
  · rw [readWord, regValue, hrdy]
    exact sampleWord_ready_and_magMask _ _ hmask
  · rw [readWord, regValue, hrdy]
    exact sampleWord_notReady_and_magMask _ _

/-- Settles O20: the address of a mapped descriptor is its register's, and no other register is there. -/
theorem requestToAMappedAddressIsItsDescriptor : Obligations.RequestToAMappedAddressIsItsDescriptor := by
  intro d r s hv hd haddr hsize hwe
  obtain ⟨reg, hreg⟩ := exists_reg_of_mapped hd
  have hr : registerAddr s.cfg reg = r.addr := by
    rcases hreg with rfl | rfl
    · exact Option.some.inj ((descriptorAddr_readDescriptor reg s.cfg).symm.trans haddr)
    · exact Option.some.inj ((descriptorAddr_writeDescriptor reg s.cfg).symm.trans haddr)
  have hat : registerAt s.cfg r.addr = some reg := hr ▸ registerAt_registerAddr hv reg
  have hsupported := requestAccess_supported hsize (hr ▸ registerAddr_aligned hv reg)
  rcases hreg with rfl | rfl
  · rw [exec_readDescriptor]
    apply runAction_congr
    rw [rawRequest_read hsupported hat (hwe.trans (descriptorWrites_readDescriptor reg)), busReadOnly_of_valid hv]
  · rw [exec_writeDescriptor]
    apply runAction_congr
    rw [rawRequest_write hsupported hat (hwe.trans (descriptorWrites_writeDescriptor reg)), busWrite_of_valid hv]

/-- Settles O42: of what a step can do, only an access appends an event, and it numbers it. -/
theorem everyStepKeepsTheHistoryNumbered : Obligations.EveryStepKeepsTheHistoryNumbered :=
  fun _ _ => step_keeps_historyNumbered

/-- Settles O45, by induction on the run: the sequencer's invariant holds in it, and where that holds no agent's
step raises a fault. -/
theorem noRunFaults : Obligations.NoRunFaults := by
  intro c n s hrun
  have hinv := hrun.runInv
  exact ⟨hinv.fault, hinv.cfg, hinv.cfg ▸ hinv.seq.code, hinv.progress⟩

/-- Settles O6: the five words, decoded. -/
theorem writtenOutWordsDecode : Obligations.WrittenOutWordsDecode := ⟨rfl, rfl, rfl, rfl, rfl⟩

/-- Settles O7: `SEQ`'s move and a direct transaction fetch an operation, and a step runs what is fetched. -/
theorem stepRunsTheDecodedInstruction : Obligations.StepRunsTheDecodedInstruction := by
  intro s hv
  refine ⟨fun hm => step_of_fetched hv (by rw [hm]; rfl), fun d w hm => step_of_fetched hv (by rw [hm]; rfl), ?_⟩
  rintro m i rfl hi
  exact ⟨fetched_wellFormed hi, step_of_fetched hv hi⟩

/-- Settles O18: a descriptor's access is supported, so the prologue leaves the fault `UNMAPPED`. -/
theorem unmappedRecordsItsFault : Obligations.UnmappedRecordsItsFault := by
  intro d w s hv hf
  rw [← descriptorAddr_eq, ← unmappedAccess_of_valid hv]
  exact runAction_of_error (act := actUnmapped d) hf rfl

/-- Settles O19, by whether the access is supported. -/
theorem rawRequestIsCheckedBeforeItIsDecoded : Obligations.RawRequestIsCheckedBeforeItIsDecoded := by
  intro r s hv hf hm
  rw [step_of_request hv hm]
  constructor
  · intro hbad
    exact runAction_of_error hf (rawRequest_of_unsupported (requestAccess_unsupported_iff.2 hbad))
  · rintro ⟨hsize, halign, hadc0, hadc1, hdata, hdir, hpin⟩
    have hnone : registerAt s.cfg r.addr = none := by
      rw [registerAt_eq_none_iff]
      intro reg haddr
      match reg, haddr with
      | .adcChannel 0, haddr => exact hadc0 (haddr.symm.trans (BitVec.add_zero _))
      | .adcChannel 1, haddr => exact hadc1 haddr.symm
      | .gpioData, haddr => exact hdata haddr.symm
      | .gpioDir, haddr => exact hdir haddr.symm
      | .switchInput, haddr => exact hpin haddr.symm
    exact runAction_of_error hf (rawRequest_of_unlisted (requestAccess_supported hsize halign) hnone)

end Sys2Proof.Proofs.Memory

/-! The stored form of the operations (spec/30_encoding.md R70 to R77): what the decoder accepts is exactly what
the encoder writes, which row selects which code, and the operation that a stored word runs. -/

namespace Sys2Proof.Machine

/-! ### The byte lanes of a word (spec/20_memory.md R54) -/

theorem wordOfLanes_byteLane (w : Word) :
    wordOfLanes (byteLane w 0) (byteLane w 1) (byteLane w 2) (byteLane w 3) = w := by
  have h32 : byteLane w 3 ++ byteLane w 2 = w.extractLsb' 16 16 :=
    BitVec.extractLsb'_append_extractLsb'_eq_extractLsb' rfl
  have h31 : w.extractLsb' 16 16 ++ byteLane w 1 = w.extractLsb' 8 24 :=
    BitVec.extractLsb'_append_extractLsb'_eq_extractLsb' rfl
  have h30 : w.extractLsb' 8 24 ++ byteLane w 0 = w.extractLsb' 0 32 :=
    BitVec.extractLsb'_append_extractLsb'_eq_extractLsb' rfl
  rw [wordOfLanes, h32, h31, h30, BitVec.extractLsb'_eq_self]

theorem wordLanes_wordOfLanes (b0 b1 b2 b3 : Byte) : wordLanes (wordOfLanes b0 b1 b2 b3) = [b0, b1, b2, b3] := by
  have h0 : byteLane (wordOfLanes b0 b1 b2 b3) 0 = b0 := BitVec.extractLsb'_append_eq_right
  have h1 : byteLane (wordOfLanes b0 b1 b2 b3) 1 = b1 :=
    (BitVec.extractLsb'_append_eq_of_le (by decide)).trans BitVec.extractLsb'_append_eq_right
  have h2 : byteLane (wordOfLanes b0 b1 b2 b3) 2 = b2 :=
    ((BitVec.extractLsb'_append_eq_of_le (by decide)).trans
      (BitVec.extractLsb'_append_eq_of_le (by decide))).trans BitVec.extractLsb'_append_eq_right
  have h3 : byteLane (wordOfLanes b0 b1 b2 b3) 3 = b3 :=
    ((BitVec.extractLsb'_append_eq_of_le (by decide)).trans
      (BitVec.extractLsb'_append_eq_of_le (by decide))).trans BitVec.extractLsb'_append_eq_left
  rw [wordLanes, h0, h1, h2, h3]

/-! ### The two encodings -/

/-- The stored form of a bus transaction: its descriptor, then for a write its data word (log entry 2). -/
def transferBytes (d : Descriptor) (w : Word) : List Byte :=
  d :: if descriptorWrites d then wordLanes w else []

theorem transferBytes_of_read {d : Descriptor} (h : descriptorWrites d = false) (w : Word) :
    transferBytes d w = [d] := by
  simp [transferBytes, h]

theorem transferBytes_of_write {d : Descriptor} (h : descriptorWrites d = true) (w : Word) :
    transferBytes d w = d :: wordLanes w := by
  simp [transferBytes, h]

/-- A transaction that writes nothing has no use for a data word. -/
theorem decodeTransfer_of_read {d : Descriptor} (h : descriptorWrites d = false) (w w' : Word) :
    decodeTransfer d w = decodeTransfer d w' := by
  by_cases hd : d ∈ mappedDescriptors
  · obtain ⟨reg, rfl | rfl⟩ := exists_reg_of_mapped hd
    · match reg with
      | .adcChannel 0 | .adcChannel 1 | .gpioData | .gpioDir | .switchInput => rfl
    · exact absurd (h.symm.trans (descriptorWrites_writeDescriptor reg)) (by decide)
  · simp only [decodeTransfer_of_not_mapped hd, h, Bool.false_eq_true, if_false]

theorem encode_decodeTransfer (d : Descriptor) (w : Word) : encode (decodeTransfer d w) = transferBytes d w := by
  by_cases hd : d ∈ mappedDescriptors
  · obtain ⟨reg, rfl | rfl⟩ := exists_reg_of_mapped hd <;>
      match reg with
      | .adcChannel 0 | .adcChannel 1 | .gpioData | .gpioDir | .switchInput => rfl
  · rw [decodeTransfer_of_not_mapped hd, encode, transferBytes]
    split <;> rfl

theorem encode_decodeState : ∀ c : StateCode, encode (decodeState c) = [c.setWidth 8] := by decide

theorem decodeState_format : ∀ c : StateCode, (decodeState c).format = .fsm := by decide

theorem decodeState_of_reserved : ∀ {c : StateCode}, 0xC ≤ c.toNat → decodeState c = .reservedState c := by decide

theorem decode_transferBytes (d : Descriptor) (w : Word) (rest : List Byte) :
    decode .bus (transferBytes d w ++ rest) = .ok (decodeTransfer d w, rest) := by
  cases h : descriptorWrites d
  · rw [transferBytes_of_read h, decodeTransfer_of_read h w 0#32]
    simp [decode, h]
  · rw [transferBytes_of_write h]
    simp [decode, h, wordLanes, wordOfLanes_byteLane]

theorem decode_stateByte (c : StateCode) (rest : List Byte) :
    decode .fsm (c.setWidth 8 :: rest) = .ok (decodeState c, rest) := by
  have hlow : (c.setWidth 8).toNat < 16 := by
    rw [BitVec.toNat_setWidth]
    omega
  rw [decode, if_pos hlow, BitVec.setWidth_setWidth_of_le _ (by decide), BitVec.setWidth_eq]

/-- `bytes` is the stored form that encoding `f` has of `i`. -/
inductive StoredAs : Format → Instr → List Byte → Prop
  | transfer (d : Descriptor) (w : Word) : StoredAs .bus (decodeTransfer d w) (transferBytes d w)
  | state (c : StateCode) : StoredAs .fsm (decodeState c) [c.setWidth 8]

/-- The decoder accepts the stored forms and nothing else. -/
theorem decode_eq_ok_iff {f : Format} {bytes rest : List Byte} {i : Instr} :
    decode f bytes = .ok (i, rest) ↔ ∃ stored, StoredAs f i stored ∧ stored ++ rest = bytes := by
  constructor
  · intro h
    match f, bytes, h with
    | .bus, d :: tail, h =>
      simp only [decode] at h
      split at h
      · rename_i hwrites
        split at h
        · rename_i b0 b1 b2 b3 tail'
          cases h
          refine ⟨_, .transfer d (wordOfLanes b0 b1 b2 b3), ?_⟩
          rw [transferBytes_of_write hwrites, wordLanes_wordOfLanes]
          rfl
        · cases h
      · rename_i hreads
        cases h
        exact ⟨_, .transfer d 0#32, by rw [transferBytes_of_read (Bool.eq_false_of_not_eq_true hreads)]; rfl⟩
    | .fsm, b :: tail, h =>
      simp only [decode] at h
      split at h
      · rename_i hlow
        cases h
        have hb : (b.setWidth 4).setWidth 8 = b := by
          apply BitVec.eq_of_toNat_eq
          rw [BitVec.toNat_setWidth, BitVec.toNat_setWidth]
          omega
        exact ⟨_, .state (b.setWidth 4), by rw [hb]; rfl⟩
      · cases h
  · rintro ⟨stored, hstored, rfl⟩
    cases hstored with
    | transfer d w => exact decode_transferBytes d w rest
    | state c => exact decode_stateByte c rest

section StoredForms

variable {f : Format} {i : Instr} {stored : List Byte}

theorem StoredAs.encode_eq (h : StoredAs f i stored) : encode i = stored := by
  cases h with
  | transfer d w => exact encode_decodeTransfer d w
  | state c => exact encode_decodeState c

theorem StoredAs.format_eq (h : StoredAs f i stored) : i.format = f := by
  cases h with
  | transfer d w => exact decodeTransfer_format d w
  | state c => exact decodeState_format c

theorem StoredAs.wellFormed (h : StoredAs f i stored) : i.wellFormed = true := by
  cases h with
  | transfer d w => exact decodeTransfer_wellFormed d w
  | state c => exact decodeState_wellFormed c

end StoredForms

/-- The operands that well-formedness allows `UNMAPPED` are those the decoder gives it. -/
theorem decodeTransfer_of_wellFormed_unmapped {d : Descriptor} {w : Word}
    (h : (Instr.unmapped d w).wellFormed = true) : decodeTransfer d w = .unmapped d w := by
  simp only [Instr.wellFormed, Bool.and_eq_true, Bool.not_eq_true', Bool.or_eq_true, beq_iff_eq,
    List.contains_eq_mem, decide_eq_false_iff_not] at h
  obtain ⟨hd, hw⟩ := h
  rw [decodeTransfer_of_not_mapped hd]
  rcases hw with hwrites | rfl
  · exact congrArg (Instr.unmapped d) (if_pos hwrites)
  · rw [ite_self]

/-- Every well-formed operation is one that a descriptor or a state code names, so the encoder writes its stored
form. -/
theorem storedAs_encode {i : Instr} (h : i.wellFormed = true) : StoredAs i.format i (encode i) := by
  cases i with
  | rdAdc n =>
    match n with
    | 0 => exact .transfer 0x00#8 0#32
    | 1 => exact .transfer 0x01#8 0#32
  | wrAdc0 w => exact .transfer 0x80#8 w
  | wrAdc1 w => exact .transfer 0x81#8 w
  | rdGpioData => exact .transfer 0x20#8 0#32
  | wrGpioData w => exact .transfer 0xA0#8 w
  | rdGpioDir => exact .transfer 0x21#8 0#32
  | wrGpioDir w => exact .transfer 0xA1#8 w
  | rdSwitch => exact .transfer 0x40#8 0#32
  | wrSwitch w => exact .transfer 0xC0#8 w
  | unmapped d w =>
    have hstored := StoredAs.transfer d w
    rwa [← encode_decodeTransfer, decodeTransfer_of_wellFormed_unmapped h] at hstored
  | initDir => exact .state Code.initDir
  | initArm0 => exact .state Code.initArm0
  | initArm1 => exact .state Code.initArm1
  | pollSel => exact .state Code.pollSel
  | pollA => exact .state Code.pollA
  | pollB => exact .state Code.pollB
  | ready => exact .state Code.ready
  | notReady => exact .state Code.notReady
  | convertState => exact .state Code.convert
  | decideState => exact .state Code.decide
  | actuate => exact .state Code.actuate
  | pace => exact .state Code.pace
  | reservedState c =>
    have hstored := StoredAs.state c
    rwa [decodeState_of_reserved (by simpa [Instr.wellFormed] using h)] at hstored

/-! ### The rows of the opcode table -/

/-- No mapped descriptor is in one of the unmapped ranges of spec/30_encoding.md R71. -/
theorem not_mapped_of_unmapped_range {d : Descriptor}
    (h : (descriptorRegion d = 0#2 ∧ 2 ≤ (descriptorIndex d).toNat) ∨
      (descriptorRegion d = 1#2 ∧ 2 ≤ (descriptorIndex d).toNat) ∨
      (descriptorRegion d = 2#2 ∧ 1 ≤ (descriptorIndex d).toNat) ∨ descriptorRegion d = 3#2) :
    d ∉ mappedDescriptors := by
  intro hd
  obtain ⟨reg, rfl | rfl⟩ := exists_reg_of_mapped hd <;>
    revert h <;>
    match reg with
    | .adcChannel 0 | .adcChannel 1 | .gpioData | .gpioDir | .switchInput => decide

/-- The first byte of a stored form selects one row, that of the operation stored. -/
theorem selectsItsRow (i : Instr) : Laws.SelectsItsRow.Statement i := by
  cases i with
  | rdAdc n => exact Laws.SelectsItsRow.rdAdc n
  | wrAdc0 w => exact Laws.SelectsItsRow.wrAdc0 w
  | wrAdc1 w => exact Laws.SelectsItsRow.wrAdc1 w
  | rdGpioData => exact Laws.SelectsItsRow.rdGpioData
  | wrGpioData w => exact Laws.SelectsItsRow.wrGpioData w
  | rdGpioDir => exact Laws.SelectsItsRow.rdGpioDir
  | wrGpioDir w => exact Laws.SelectsItsRow.wrGpioDir w
  | rdSwitch => exact Laws.SelectsItsRow.rdSwitch
  | wrSwitch w => exact Laws.SelectsItsRow.wrSwitch w
  | unmapped d w => exact Laws.SelectsItsRow.unmapped d w
  | initDir => exact Laws.SelectsItsRow.initDir
  | initArm0 => exact Laws.SelectsItsRow.initArm0
  | initArm1 => exact Laws.SelectsItsRow.initArm1
  | pollSel => exact Laws.SelectsItsRow.pollSel
  | pollA => exact Laws.SelectsItsRow.pollA
  | pollB => exact Laws.SelectsItsRow.pollB
  | ready => exact Laws.SelectsItsRow.ready
  | notReady => exact Laws.SelectsItsRow.notReady
  | convertState => exact Laws.SelectsItsRow.convertState
  | decideState => exact Laws.SelectsItsRow.decideState
  | actuate => exact Laws.SelectsItsRow.actuate
  | pace => exact Laws.SelectsItsRow.pace
  | reservedState c => exact Laws.SelectsItsRow.reservedState c

theorem StoredAs.exists_row {f : Format} {i : Instr} {b : Byte} {tail : List Byte} (h : StoredAs f i (b :: tail)) :
    ∃ r, selectedRows f b = [r] ∧ i.op = r.op := by
  obtain ⟨b', tail', hencode, hrow⟩ := selectsItsRow i h.wellFormed
  obtain ⟨rfl, -⟩ := List.cons.inj (h.encode_eq.symm.trans hencode)
  rw [h.format_eq] at hrow
  obtain ⟨r, hr, hop⟩ := List.map_eq_singleton_iff.1 hrow
  exact ⟨r, hr, hop.symm⟩

/-! ### A table word (log entries 2 and 8) -/

theorem step_placeState {s : State} (hv : cfgValid s.cfg = true) (c : StateCode) :
    step (placeState c s) = exec (decodeState c) { s with fsm := c, tick := s.tick + 1 } :=
  step_of_fetched (s := placeState c s) hv rfl

theorem step_placeTransfer {s : State} (hv : cfgValid s.cfg = true) (d : Descriptor) (w : Word) :
    step (placeTransfer d w s) = exec (decodeTransfer d w) { s with tick := s.tick + 1 } :=
  step_of_fetched (s := placeTransfer d w s) hv rfl

/-- The state code in a table word. -/
def tableCode (nbits w : Nat) : StateCode := BitVec.ofNat 4 (w % 2 ^ nbits)

/-- The descriptor in a table word. -/
def tableDescriptor (nbits w : Nat) : Descriptor := BitVec.ofNat 8 (w % 2 ^ nbits)

/-- The data word in a table word. -/
def tableData (nbits w : Nat) : Word :=
  wordOfLanes (BitVec.ofNat 8 (w % 2 ^ nbits / 2 ^ 8)) (BitVec.ofNat 8 (w % 2 ^ nbits / 2 ^ 16))
    (BitVec.ofNat 8 (w % 2 ^ nbits / 2 ^ 24)) (BitVec.ofNat 8 (w % 2 ^ nbits / 2 ^ 32))

section TableWord

variable {nbits w : Nat} {i : Instr}

theorem decodeTableWord_eq_some_iff : decodeTableWord nbits w = some i ↔
    ∃ rest, decode (tableFormat nbits w) (tableBytes nbits w) = .ok (i, rest) := by
  unfold decodeTableWord
  split
  · rename_i j rest hdecode
    simp [hdecode]
  · rename_i e hdecode
    simp [hdecode]

theorem setWidth_tableByte : (BitVec.ofNat 8 (w % 2 ^ nbits)).setWidth 4 = tableCode nbits w :=
  BitVec.setWidth_ofNat_of_le (by decide) _

theorem withFetchWord_of_fsm (h : tableFormat nbits w = .fsm) (s : State) :
    s.withFetchWord nbits w = placeState (tableCode nbits w) s := by
  rw [State.withFetchWord, h, ← setWidth_tableByte]
  rfl

theorem withFetchWord_of_bus (h : tableFormat nbits w = .bus) (s : State) :
    s.withFetchWord nbits w = placeTransfer (tableDescriptor nbits w) (tableData nbits w) s := by
  rw [State.withFetchWord, h]
  rfl

theorem decodeTableWord_of_fsm (h : tableFormat nbits w = .fsm) (hi : decodeTableWord nbits w = some i) :
    i = decodeState (tableCode nbits w) := by
  obtain ⟨rest, hdecode⟩ := decodeTableWord_eq_some_iff.1 hi
  rw [h, tableBytes, decode] at hdecode
  split at hdecode
  · cases hdecode
    rw [setWidth_tableByte]
  · cases hdecode

theorem decodeTableWord_of_bus (h : tableFormat nbits w = .bus) (hi : decodeTableWord nbits w = some i) :
    i = decodeTransfer (tableDescriptor nbits w) (tableData nbits w) := by
  obtain ⟨rest, hdecode⟩ := decodeTableWord_eq_some_iff.1 hi
  rw [h, tableBytes, decode] at hdecode
  split at hdecode
  · cases hdecode
    rfl
  · rename_i hreads
    cases hdecode
    exact decodeTransfer_of_read (Bool.eq_false_of_not_eq_true hreads) _ _

end TableWord

/-! ### The whole state after a write that `INIT` makes -/

theorem adcTriggerSingle_eq (s : State) : adcTriggerSingle s =
    { s with adcBusy := ⟨true, true⟩, adcMode := if s.adcMode = .cont then .cont else .single } := by
  rw [adcTriggerSingle]
  cases s.adcMode <;> rfl

/-- A nonzero write to channel 0 requests a conversion (spec/40_bus_access.md R101). -/
theorem afterWrite_adc0_of_ne_zero {w : Word} (h : w ≠ 0#32) (s : State) :
    afterWrite (.adcChannel 0) w s = { s with
      adcBusy := ⟨true, true⟩
      adcMode := if s.adcMode = .cont then .cont else .single
      seqNo := s.seqNo + 1
      events := s.events ++ [⟨s.seqNo, .wr, .adcChannel 0, w⟩] } := by
  rw [afterWrite, regWrite_adc_of_ne_zero h, if_pos rfl, adcTriggerSingle_eq]
  rfl

/-- A nonzero write to channel 1 starts `CONT` (spec/40_bus_access.md R102). -/
theorem afterWrite_adc1_of_ne_zero {w : Word} (h : w ≠ 0#32) (s : State) :
    afterWrite (.adcChannel 1) w s = { s with
      adcBusy := ⟨true, true⟩
      adcMode := .cont
      seqNo := s.seqNo + 1
      events := s.events ++ [⟨s.seqNo, .wr, .adcChannel 1, w⟩] } := by
  rw [afterWrite, regWrite_adc_of_ne_zero h, if_neg (by decide)]
  rfl

theorem firstPoll_eq (st : Strategy) : firstPoll st = if st = .bucket then Code.pollSel else Code.pollA := by
  cases st <;> rfl

end Sys2Proof.Machine

namespace Sys2Proof.Proofs.Encoding

open Sys2Proof Sys2Proof.Machine

/-- Settles O1: the encoder writes the stored form of a well-formed operation, and the decoder accepts it. -/
theorem decodeUndoesEncode : Obligations.DecodeUndoesEncode :=
  fun _ _ h => decode_eq_ok_iff.2 ⟨_, storedAs_encode h, rfl⟩

/-- Settles O2: what the decoder accepts begins with the stored form of what it answers. -/
theorem encodeUndoesDecode : Obligations.EncodeUndoesDecode := by
  intro f bytes rest i h
  obtain ⟨stored, hstored, rfl⟩ := decode_eq_ok_iff.1 h
  exact ⟨hstored.wellFormed, hstored.format_eq, by rw [hstored.encode_eq]⟩

/-- Settles O3: the ten lines that map a descriptor, and the ranges that hold none of the ten. -/
theorem everyDescriptorDecodesByTheTable : Obligations.EveryDescriptorDecodesByTheTable :=
  fun w => ⟨rfl, rfl, rfl, rfl, rfl, rfl, rfl, rfl, rfl, rfl,
    fun _ hd => ⟨_, decodeTransfer_of_not_mapped (not_mapped_of_unmapped_range hd) w⟩⟩

/-- Settles O4: the twelve lines that name a state, and the codes above them. -/
theorem everyStateCodeDecodesByTheTable : Obligations.EveryStateCodeDecodesByTheTable :=
  ⟨rfl, rfl, rfl, rfl, rfl, rfl, rfl, rfl, rfl, rfl, rfl, rfl, fun _ => decodeState_of_reserved⟩

/-- Settles O5: a descriptor and a state code are each the first byte of the stored form of what they name. -/
theorem oneTableRowSelectsEachCode : Obligations.OneTableRowSelectsEachCode :=
  ⟨fun d w => (StoredAs.transfer d w).exists_row, fun c => (StoredAs.state c).exists_row⟩

/-- Settles O8, by the encoding the table word is in. -/
theorem storedTableWordRunsNext : Obligations.StoredTableWordRunsNext := by
  intro s nbits w i hv hi
  cases hformat : tableFormat nbits w with
  | bus =>
    obtain rfl := decodeTableWord_of_bus hformat hi
    rw [withFetchWord_of_bus hformat, step_placeTransfer hv, decodeTransfer_format, if_neg (by decide)]
  | fsm =>
    obtain rfl := decodeTableWord_of_fsm hformat hi
    rw [withFetchWord_of_fsm hformat, step_placeState hv, decodeState_format, if_pos rfl]
    rfl

/-- Settles O21: each action is one access, and a valid configuration's trigger word is not 0. -/
theorem initPerformsTheStartupWrites : Obligations.InitPerformsTheStartupWrites := by
  intro s hv hf
  obtain ⟨-, -, -, -, -, -, -, -, -, htrigger, -⟩ := cfgValid_iff.1 hv
  refine ⟨?_, ?_, ?_⟩
  · exact runAction_of_ok hf (actInitDir_of_valid hv)
  · rw [exec_initArm0, runAction_of_ok hf (actInitArm0_of_valid hv), afterWrite_adc0_of_ne_zero htrigger]
    rfl
  · rw [exec_initArm1, runAction_of_ok hf (actInitArm1_of_valid hv), afterWrite_adc1_of_ne_zero htrigger,
      startIteration, firstPoll_eq]
    rfl

/-- Settles O29: the action always raises, whatever code names it. -/
theorem reservedStateRecordsBadState : Obligations.ReservedStateRecordsBadState :=
  fun _ _ hf => runAction_of_error (act := actReservedState) hf rfl

end Sys2Proof.Proofs.Encoding

/-! The bus writes (spec/40_bus_access.md R101 to R108): the whole state each one leaves, what the pins show after
it, that `CONT` is never left, and what the detector finds in the word of a sample (spec/41_adc_mux_ready.md R131,
R133). -/

namespace Sys2Proof.Machine

/-! ### The whole state after a write -/

/-- Under a valid configuration and with no fault a write reaches its register and records its event. -/
theorem runAction_busWrite_of_valid {s : State} (hv : cfgValid s.cfg = true) (hf : s.fault = none)
    (d : Descriptor) (reg : Reg) (w : Word) : runAction (busWrite d reg w) s = .next (afterWrite reg w s) :=
  runAction_of_ok hf (busWrite_of_valid hv d reg w)

/-- A zero write to a channel is no command (spec/40_bus_access.md R101, R102). -/
theorem afterWrite_adc_zero (n : Channel) (s : State) :
    afterWrite (.adcChannel n) 0#32 s = { s with
      seqNo := s.seqNo + 1
      events := s.events ++ [⟨s.seqNo, .wr, .adcChannel n, 0#32⟩] } := by
  rw [afterWrite, regWrite_adc_zero]
  rfl

theorem indicatorBits_eq_extractLsb' (w : Word) : indicatorBits w = w.extractLsb' 0 10 :=
  BitVec.setWidth_eq_extractLsb' (by decide)

theorem indicatorBits_getLsbD (w : Word) (i : Fin 10) : (indicatorBits w).getLsbD i.val = w.getLsbD i.val := by
  rw [indicatorBits, BitVec.getLsbD_setWidth, decide_eq_true i.isLt, Bool.true_and]

theorem afterWrite_gpioData_eq (w : Word) (s : State) :
    afterWrite .gpioData w s = { s with
      gpioData := w.extractLsb' 0 10
      seqNo := s.seqNo + 1
      events := s.events ++ [⟨s.seqNo, .wr, .gpioData, w⟩] } := by
  rw [← indicatorBits_eq_extractLsb']
  rfl

theorem afterWrite_gpioDir_eq (w : Word) (s : State) :
    afterWrite .gpioDir w s = { s with
      gpioDir := w.extractLsb' 0 10
      seqNo := s.seqNo + 1
      events := s.events ++ [⟨s.seqNo, .wr, .gpioDir, w⟩] } := by
  rw [← indicatorBits_eq_extractLsb']
  rfl

/-! ### The indicator pins (spec/43_gpio_driver.md R185) -/

theorem ledOut_of_driven {s : State} {i : Fin 10} (h : s.gpioDir.getLsbD i.val = true) :
    ledOut s i = some (s.gpioData.getLsbD i.val) := if_pos h

theorem ledOut_of_not_driven {s : State} {i : Fin 10} (h : s.gpioDir.getLsbD i.val = false) :
    ledOut s i = none := if_neg (ne_true_of_eq_false h)

/-! ### `CONT` is never left (spec/40_bus_access.md R102) -/

theorem afterWrite_keeps_cont {s : State} (h : s.adcMode = .cont) (reg : Reg) (w : Word) :
    (afterWrite reg w s).adcMode = .cont := by
  cases reg with
  | adcChannel n =>
    rw [afterWrite, record_adcMode]
    rcases regWrite_adcChannel_cases n w s with hw | hw | hw <;> rw [hw]
    · exact h
    · exact adcTriggerSingle_adcMode_cont s h
    · exact adcEnableContinuous_adcMode s
  | gpioData => exact h
  | gpioDir => exact h
  | switchInput => exact h

theorem DeviceEffect.keeps_cont {s t : State} (e : DeviceEffect s t) (h : s.adcMode = .cont) :
    t.adcMode = .cont := by
  rcases e with e | ⟨reg, e⟩ | ⟨reg, w, e⟩
  · exact e.adcMode.trans h
  · exact e.adcMode.trans h
  · exact e.adcMode.trans (afterWrite_keeps_cont h reg w)

/-! ### The detector and the word of a sample -/

section Detector

variable {s : State} (n : Channel)

/-- Where the masks agree the detector finds the flag (spec/41_adc_mux_ready.md R131). -/
theorem readyOk_readWord_of_masks_eq (hv : cfgValid s.cfg = true) (hmask : s.cfg.readyMask = s.cfg.adcReadyMask) :
    readyOk s.cfg (readWord (.adcChannel n) s) = s.adcRdy.get n := by
  obtain ⟨hadc, -⟩ := cfgValid_iff.1 hv
  exact readyOk_sampleWord hadc hmask _ _ _

/-- Where they differ, `READY_MASK` is a bit that is drawn (spec/41_adc_mux_ready.md R133). -/
theorem readyOk_readWord_of_masks_ne (hv : cfgValid s.cfg = true) (hmask : s.cfg.readyMask ≠ s.cfg.adcReadyMask) :
    readyOk s.cfg (readWord (.adcChannel n) s) = decide (Config.draw s.draws &&& s.cfg.readyMask ≠ 0#32) := by
  obtain ⟨hadc, hready, -⟩ := cfgValid_iff.1 hv
  have hdrawn : readWord (.adcChannel n) s &&& s.cfg.readyMask = Config.draw s.draws &&& s.cfg.readyMask :=
    sampleWord_and_of_disjoint (readyMaskValid_and_magMask hready) (readyMaskValid_disjoint hready hadc hmask) _ _ _
  rw [readyOk, hdrawn, Bool.eq_iff_iff, bne_iff_ne, decide_eq_true_iff]

/-- The magnitude of a ready channel is in the word it reads as (spec/40_bus_access.md R100). -/
theorem mag_readWord_of_ready (hv : cfgValid s.cfg = true) (hrdy : s.adcRdy.get n = true) :
    mag (readWord (.adcChannel n) s) = s.adcMag.get n := by
  obtain ⟨hadc, -⟩ := cfgValid_iff.1 hv
  rw [readWord, regValue, hrdy]
  exact mag_sampleWord_ready hadc _ _

end Detector

end Sys2Proof.Machine

namespace Sys2Proof.Proofs.BusAccess

open Sys2Proof Sys2Proof.Machine

/-- Settles O49: `POLL_A` branches on the detector, and the detector finds the flag. -/
theorem detectorFollowsTheFlagWhenMasksAgree : Obligations.DetectorFollowsTheFlagWhenMasksAgree := by
  intro n s hv hf hs hmask hn
  have hpoll := runAction_of_ok hf (actPollA_of_valid hv hs hn)
  rw [readyOk_readWord_of_masks_eq n hv hmask] at hpoll
  exact ⟨_, hpoll, rfl, fun hrdy => congrArg some (mag_readWord_of_ready n hv hrdy), rfl⟩

/-- Settles O50: two valid masks that differ share no bit, so the tested bit is one that the read draws. -/
theorem mismatchedMaskTestsADraw : Obligations.MismatchedMaskTestsADraw :=
  fun n s hv hf hmask => ⟨readWord (.adcChannel n) s, _, runAction_busReadOnly_of_valid hv hf _ _, rfl,
    readyOk_readWord_of_masks_ne n hv hmask⟩

/-- Settles O10, by whether the word is zero. -/
theorem wrAdc0RequestsSingleShot : Obligations.WrAdc0RequestsSingleShot := by
  intro w s hv hf
  rw [exec_wrAdc0, runAction_busWrite_of_valid hv hf]
  refine ⟨rfl, fun hw => ?_, ?_⟩
  · rw [afterWrite_adc0_of_ne_zero hw]
  · rintro rfl
    rw [afterWrite_adc_zero]

/-- Settles O11: the write by whether the word is zero, and `CONT` by all that an operation can do to a device. -/
theorem wrAdc1EnablesContinuous : Obligations.WrAdc1EnablesContinuous := by
  constructor
  · intro w s hv hf
    rw [exec_wrAdc1, runAction_busWrite_of_valid hv hf]
    refine ⟨rfl, fun hw => ?_, ?_⟩
    · rw [afterWrite_adc1_of_ne_zero hw]
    · rintro rfl
      rw [afterWrite_adc_zero]
  · intro i s t hcont ht
    exact (exec_effect ht).keeps_cont hcont

/-- Settles O13: the latch is what a driven pin shows, so its new value shows under any direction set later. -/
theorem wrGpioDataLatchesTenBits : Obligations.WrGpioDataLatchesTenBits := by
  intro w s hv hf
  refine ⟨rfl, _, runAction_busWrite_of_valid hv hf _ _ w, afterWrite_gpioData_eq w s, fun i dir hdir => ?_⟩
  rw [ledOut_of_driven hdir, afterWrite_gpioData_same, indicatorBits_getLsbD]

/-- Settles O15: the output enables are the direction register, and a pin whose bit is 0 is not driven. -/
theorem wrGpioDirSetsOutputEnables : Obligations.WrGpioDirSetsOutputEnables := by
  intro w s hv hf
  refine ⟨rfl, _, runAction_busWrite_of_valid hv hf _ _ w, afterWrite_gpioDir_eq w s,
    indicatorBits_eq_extractLsb' w, fun i hi => ledOut_of_not_driven ?_⟩
  rw [afterWrite_gpioDir_same, indicatorBits_getLsbD, hi]

/-- Settles O17: there is no device behind `SWITCH_INPUT` that a write could change. -/
theorem wrSwitchOnlyRecordsItsEvent : Obligations.WrSwitchOnlyRecordsItsEvent :=
  fun w _ hv hf => ⟨rfl, runAction_busWrite_of_valid hv hf _ .switchInput w⟩

end Sys2Proof.Proofs.BusAccess

/-! The ADC and the readiness of its samples (spec/41_adc_mux_ready.md): the mode that the commands in the history
leave, what `CONT` keeps, the two steps of the `ADC` agent, and which bits the multiplexer, the detector and the
extractor look at. -/

namespace Sys2Proof.Machine

/-! ### The commands in the history (spec/41_adc_mux_ready.md R126) -/

/-- A command is a nonzero write to the channel it names (spec/41_adc_mux_ready.md R124). -/
theorem commands_iff {e : BusEvent} {n : Channel} :
    e.commands n = true ↔ e.kind = .wr ∧ e.reg = .adcChannel n ∧ e.value ≠ 0#32 := by
  simp only [BusEvent.commands, Bool.and_eq_true, beq_iff_eq, bne_iff_ne, and_assoc]

theorem not_commands {e : BusEvent} {n : Channel}
    (h : ¬ (e.kind = .wr ∧ e.reg = .adcChannel n ∧ e.value ≠ 0#32)) : e.commands n = false :=
  Bool.eq_false_of_not_eq_true (mt commands_iff.1 h)

/-- A trigger leaves `CONT` as it is and makes any other mode `SINGLE`, in the history as in the device. -/
theorem historyMode_concat_of_commands_zero {es : List BusEvent} {e : BusEvent} (h0 : e.commands 0 = true)
    (h1 : e.commands 1 = false) :
    historyMode (es ++ [e]) = if historyMode es = .cont then .cont else .single := by
  cases hcont : es.any (BusEvent.commands 1) with
  | true => simp [historyMode, hcont]
  | false => cases hsingle : es.any (BusEvent.commands 0) <;> simp [historyMode, hcont, hsingle, h0, h1]

/-! ### The invariant of the ADC -/

theorem AdcInv.congr {s t : State} (h : AdcInv s) (hmode : t.adcMode = s.adcMode) (hbusy : t.adcBusy = s.adcBusy)
    (hrdy : t.adcRdy = s.adcRdy) (hhistory : historyMode t.events = historyMode s.events) : AdcInv t := by
  obtain ⟨mode, off, cont⟩ := h
  exact ⟨by rw [hmode, hhistory, mode], by rw [hmode, hbusy, hrdy]; exact off, by rw [hmode, hbusy]; exact cont⟩

/-- An event that is no command leaves the mode of the history as it is. -/
theorem AdcInv.concat {s t : State} (h : AdcInv s) {e : BusEvent} (hevents : t.events = s.events ++ [e])
    (he : ∀ n, e.commands n = false) (hmode : t.adcMode = s.adcMode) (hbusy : t.adcBusy = s.adcBusy)
    (hrdy : t.adcRdy = s.adcRdy) : AdcInv t :=
  h.congr hmode hbusy hrdy (by rw [hevents, historyMode_concat_of_not_commands he])

theorem AdcInv.afterRead {s : State} (h : AdcInv s) (reg : Reg) : AdcInv (afterRead reg s) :=
  h.concat (afterRead_events reg s) (fun _ => not_commands fun he => nomatch he.1) rfl rfl rfl

/-- A zero word, or a word to another register, commands no channel. -/
theorem AdcInv.afterWrite_of_no_command {s : State} (h : AdcInv s) {reg : Reg} {w : Word}
    (hcommand : ∀ n, reg = .adcChannel n → w = 0#32) : AdcInv (afterWrite reg w s) := by
  have he : ∀ n, BusEvent.commands n ⟨s.seqNo, .wr, reg, w⟩ = false :=
    fun n => not_commands fun ⟨_, hreg, hw⟩ => hw (hcommand n hreg)
  have hkept : (afterWrite reg w s).adcMode = s.adcMode ∧ (afterWrite reg w s).adcBusy = s.adcBusy := by
    by_cases hadc : ∃ n, reg = .adcChannel n
    · obtain ⟨n, rfl⟩ := hadc
      rw [hcommand n rfl, afterWrite_adc_zero]
      exact ⟨rfl, rfl⟩
    · exact afterWrite_adc_of_ne (not_exists.1 hadc) w s
  exact h.concat (afterWrite_events reg w s) he hkept.1 hkept.2 (afterWrite_adcRdy reg w s)

/-- `AdcTriggerSingle` leaves the mode that the history with its command has (spec/41_adc_mux_ready.md R123). -/
theorem AdcInv.afterWrite_adc0 {s : State} (h : AdcInv s) {w : Word} (hw : w ≠ 0#32) :
    AdcInv (afterWrite (.adcChannel 0) w s) := by
  rw [afterWrite_adc0_of_ne_zero hw]
  constructor
  case mode =>
    rw [historyMode_concat_of_commands_zero (commands_iff.2 ⟨rfl, rfl, hw⟩) (not_commands (by simp)), ← h.mode]
  case off =>
    intro hoff
    dsimp only at hoff
    split at hoff <;> cases hoff
  case cont => exact fun _ => rfl

/-- `AdcEnableContinuous` leaves `CONT` (spec/41_adc_mux_ready.md R125). -/
theorem AdcInv.afterWrite_adc1 {s : State} {w : Word} (hw : w ≠ 0#32) :
    AdcInv (afterWrite (.adcChannel 1) w s) := by
  rw [afterWrite_adc1_of_ne_zero hw]
  exact ⟨(historyMode_concat_of_commands_one (commands_iff.2 ⟨rfl, rfl, hw⟩)).symm, nofun, fun _ => rfl⟩

theorem AdcInv.afterWrite {s : State} (h : AdcInv s) (reg : Reg) (w : Word) : AdcInv (afterWrite reg w s) := by
  by_cases hw : w = 0#32
  · exact h.afterWrite_of_no_command fun _ _ => hw
  · match reg with
    | .adcChannel 0 => exact h.afterWrite_adc0 hw
    | .adcChannel 1 => exact .afterWrite_adc1 hw
    | .gpioData | .gpioDir | .switchInput => exact h.afterWrite_of_no_command nofun

theorem SameDevices.adcInv {s t : State} (e : SameDevices s t) (h : AdcInv s) : AdcInv t :=
  h.congr e.adcMode e.adcBusy e.adcRdy (by rw [e.events])

theorem DeviceEffect.adcInv {s t : State} (e : DeviceEffect s t) (h : AdcInv s) : AdcInv t := by
  rcases e with e | ⟨reg, e⟩ | ⟨reg, w, e⟩
  · exact e.adcInv h
  · exact e.adcInv (h.afterRead reg)
  · exact e.adcInv (h.afterWrite reg w)

/-- A channel with a conversion pending is not in `OFF`. -/
theorem AdcInv.ne_off_of_busy {s : State} (h : AdcInv s) {n : Channel} (hbusy : s.adcBusy.get n = true) :
    s.adcMode ≠ .off := by
  intro hoff
  rw [(h.off hoff).1, PerChannel.get_pair] at hbusy
  cases hbusy

/-- In `CONT` a completed conversion is followed by the next one (spec/41_adc_mux_ready.md R121). -/
theorem adcComplete_keeps_busy {s : State} (hcont : s.adcMode = .cont) (hbusy : s.adcBusy = ⟨true, true⟩)
    (n : Channel) (v : Magnitude) : (adcComplete n v s).adcBusy = ⟨true, true⟩ := by
  rw [adcComplete_adcBusy, hcont, hbusy]
  match n with
  | 0 | 1 => rfl

theorem AdcInv.adcComplete {s : State} (h : AdcInv s) {n : Channel} (hbusy : s.adcBusy.get n = true)
    (v : Magnitude) : AdcInv (adcComplete n v s) where
  mode := h.mode
  off hoff := absurd hoff (h.ne_off_of_busy hbusy)
  cont hcont := adcComplete_keeps_busy (s := s) hcont (h.cont hcont) n v

theorem AdcInv.adcInvalidate {s : State} (h : AdcInv s) {n : Channel} (hbusy : s.adcBusy.get n = true) :
    AdcInv (adcInvalidate n s) where
  mode := h.mode
  off hoff := absurd hoff (h.ne_off_of_busy hbusy)
  cont := h.cont

/-! ### What `CONT` keeps -/

theorem afterWrite_keeps_busy {s : State} (h : s.adcBusy = ⟨true, true⟩) (reg : Reg) (w : Word) :
    (afterWrite reg w s).adcBusy = ⟨true, true⟩ := by
  cases reg with
  | adcChannel n =>
    rw [afterWrite, record_adcBusy]
    rcases regWrite_adcChannel_cases n w s with hw | hw | hw <;> rw [hw]
    · exact h
    · exact adcTriggerSingle_adcBusy s
    · exact adcEnableContinuous_adcBusy s
  | gpioData | gpioDir | switchInput => exact h

/-- Only `COMPLETE` ends a pending conversion. -/
theorem DeviceEffect.keeps_busy {s t : State} (e : DeviceEffect s t) (h : s.adcBusy = ⟨true, true⟩) :
    t.adcBusy = ⟨true, true⟩ := by
  rcases e with e | ⟨reg, e⟩ | ⟨reg, w, e⟩
  · exact e.adcBusy.trans h
  · exact e.adcBusy.trans h
  · exact e.adcBusy.trans (afterWrite_keeps_busy h reg w)

/-! ### The steps of an agent -/

theorem step_of_agent {s : State} {m : AgentMove} (hv : cfgValid s.cfg = true) (hm : nextMove s = .agent m) :
    step s = agentMove m (takeMove s) := by
  simp only [step, hm, makeMove, guardCfg, takeMove_cfg, hv, if_true]

/-- With no fault recorded, a channel's `ADC` steps are enabled where it is busy (spec/41_adc_mux_ready.md R121,
R122). -/
theorem adcEnabled_of_fault_none {s : State} (hf : s.fault = none) (n : Channel) :
    adcEnabled n s = s.adcBusy.get n := by
  simp [adcEnabled, hf]

theorem agentMove_complete_eq {s : State} (hf : s.fault = none) (n : Channel) (v : Magnitude) :
    agentMove (.complete n v) s = .next (if s.adcBusy.get n then adcComplete n v s else s) :=
  runAction_of_ok (act := offerComplete n v) hf (by rw [offerComplete, adcEnabled_of_fault_none hf])

theorem agentMove_invalidate_eq {s : State} (hf : s.fault = none) (n : Channel) :
    agentMove (.invalidate n) s = .next (if s.adcBusy.get n then adcInvalidate n s else s) :=
  runAction_of_ok (act := offerInvalidate n) hf (by rw [offerInvalidate, adcEnabled_of_fault_none hf])

/-! ### The multiplexer, the detector and the extractor -/

/-- The detector finds a bit of `READY_MASK` that is set (spec/41_adc_mux_ready.md R131). -/
theorem readyOk_iff {c : Cfg} {w : Word} :
    readyOk c w = true ↔ ∃ i, w.getLsbD i = true ∧ c.readyMask.getLsbD i = true := by
  rw [readyOk, bne_iff_ne]
  constructor
  · intro hne
    by_contra hno
    push Not at hno
    refine hne (BitVec.eq_of_getLsbD_eq fun i _ => ?_)
    cases hw : w.getLsbD i
    · simp [hw]
    · simp [hno i hw]
  · rintro ⟨i, hw, hmask⟩ hzero
    have hbit := congrArg (fun v : Word => v.getLsbD i) hzero
    simp [hw, hmask] at hbit

theorem mag_toNat (w : Word) : (mag w).toNat = w.toNat % 4096 := by
  rw [mag_eq_extractLsb', BitVec.extractLsb'_toNat, Nat.shiftRight_zero]

theorem selectorBit_switchWord (sw : Bool) (drawn : Word) :
    selectorBit (switchWord sw drawn) = if sw then 1#1 else 0#1 := by
  have hbit : selectorBit (switchWord sw drawn) = BitVec.ofBool sw :=
    BitVec.eq_of_getLsbD_eq fun i hi => by
      obtain rfl : i = 0 := by omega
      rw [selectorBit, BitVec.getLsbD_setWidth, switchWord_getLsbD_zero]
      simp
  rw [hbit]
  cases sw <;> rfl

theorem actPollSel_threshold {s : State} (hs : s.cfg.strategy = .threshold) :
    actPollSel s = .error (.badState s.fsm) := by
  simp only [actPollSel, hs]

end Sys2Proof.Machine

namespace Sys2Proof.Proofs.AdcReady

open Sys2Proof Sys2Proof.Machine

/-- Settles O41: of what a step can do, only a write commands the ADC, and it is then the last command in the
history; the `ADC` agent's steps need a busy channel, which `OFF` has none of. -/
theorem everyStepKeepsTheAdcInvariant : Obligations.EveryStepKeepsTheAdcInvariant := by
  intro s t h ht
  have htake : AdcInv (takeMove s) := h.congr rfl rfl rfl rfl
  rcases step_effect ht with e | ⟨n, v, -, hbusy, rfl⟩ | ⟨n, -, hbusy, rfl⟩ | ⟨b, -, rfl⟩ | ⟨c, d, -, -, rfl⟩
  · exact e.adcInv htake
  · exact htake.adcComplete hbusy v
  · exact htake.adcInvalidate hbusy
  · exact htake.congr rfl rfl rfl rfl
  · exact (adcInv_resetWith c d).congr rfl rfl rfl rfl

/-- Settles O39: no write leaves `CONT`, and a `COMPLETE` in it sets the busy bit again. -/
theorem continuousModeIsAbsorbing : Obligations.ContinuousModeIsAbsorbing := by
  intro s t ht hreset hcont
  rcases step_effect ht with e | ⟨n, v, -, -, rfl⟩ | ⟨n, -, -, rfl⟩ | ⟨b, -, rfl⟩ | ⟨c, d, hm, -, -⟩
  · exact ⟨e.keeps_cont hcont, e.keeps_busy⟩
  · exact ⟨hcont, fun hbusy => adcComplete_keeps_busy (s := takeMove s) hcont hbusy n v⟩
  · exact ⟨hcont, id⟩
  · exact ⟨hcont, id⟩
  · exact absurd hm (hreset c d)

/-- Settles O22: `POLL_SEL` reads as `RD_SWITCH` does, and bit 0 of the word is the pin. -/
theorem pollSelRoutesByTheSwitch : Obligations.PollSelRoutesByTheSwitch := by
  intro s hv hf
  refine ⟨fun hs => ⟨readWord .switchInput s, runAction_busReadOnly_of_valid hv hf _ _, ?_⟩,
    fun hs => runAction_of_error hf (actPollSel_threshold hs)⟩
  have hsel : selectorBit (readWord .switchInput s) = if s.sw then 1#1 else 0#1 := selectorBit_switchWord _ _
  have hch : muxSel (readWord .switchInput s) = if s.sw then 1 else 0 := muxSel_switchWord _ _
  rw [exec_pollSel, runAction_of_ok hf (actPollSel_of_valid hv hs), hsel, hch]
  rfl

/-- Settles O31, by whether the channel is busy. -/
theorem adcStepsHaveTheirEffectWhenEnabled : Obligations.AdcStepsHaveTheirEffectWhenEnabled := by
  intro n s hv hf
  have hcomplete : ∀ v, nextMove s = .agent (.complete n v) →
      step s = .next (if s.adcBusy.get n then adcComplete n v (takeMove s) else takeMove s) :=
    fun v hm => (step_of_agent hv hm).trans (agentMove_complete_eq (s := takeMove s) hf n v)
  have hinvalidate : nextMove s = .agent (.invalidate n) →
      step s = .next (if s.adcBusy.get n then adcInvalidate n (takeMove s) else takeMove s) :=
    fun hm => (step_of_agent hv hm).trans (agentMove_invalidate_eq (s := takeMove s) hf n)
  refine ⟨fun v hm hbusy => ?_, fun hm hbusy => ?_, fun v hm hidle => ?_⟩
  · rw [hcomplete v hm, hbusy]
    rfl
  · rw [hinvalidate hm, hbusy]
    rfl
  · rcases hm with hm | hm
    · rw [hcomplete v hm, hidle]
      rfl
    · rw [hinvalidate hm, hidle]
      rfl

/-- Settles O51, one unit at a time. -/
theorem muxDetectorAndExtractorReadTheirBits : Obligations.MuxDetectorAndExtractorReadTheirBits :=
  fun _ w => ⟨fun h => congrArg channelOfBit h, fun h => congrArg channelOfBit h, readyOk_iff, mag_toNat w⟩

end Sys2Proof.Proofs.AdcReady

/-! The history of a run (spec/44_sequencer.md R213): each action of the sequencer writes its part of the history,
`PACE` closes the iteration under way, and `ACTUATE` writes the pattern of the samples (R218). -/

namespace Sys2Proof.Machine

/-! ### The history, with its iterations counted -/

/-- The history is `INIT`, the whole iterations that read `words`, and the part of an iteration that the pipeline
shows, whose switch word is `w1`: the clause of `HistoryInv`, with its two witnesses named. -/
structure HistoryIs (words : List (Word × Word)) (w1 : Word) (s : State) : Prop where
  events : s.events.map BusEvent.body =
    initEvents s.cfg ++ (words.flatMap fun x => iterationEvents s.cfg x.1 x.2) ++ openEvents s.cfg s.p w1
  channel : ∀ n, s.p.ch = some n → n = muxSel w1

/-- `NOT_READY`, and `PACE` without a pattern, stand for a failed readiness test (spec/44_sequencer.md R217). -/
def SkipsOnlyUnready (s : State) : Prop :=
  s.fsm = Code.notReady ∨ (s.fsm = Code.pace ∧ s.p.pat = none) → samplesPassed s.cfg s.p = false

/-- `HistoryInv`, with `n` whole iterations. -/
structure IterationsDone (n : Nat) (s : State) : Prop where
  init : s.fsm.toNat ≤ 2 → n = 0 ∧ s.events.map BusEvent.body = (initEvents s.cfg).take s.fsm.toNat
  iterations : 2 < s.fsm.toNat → ∃ words w1, words.length = n ∧ HistoryIs words w1 s
  skips : SkipsOnlyUnready s

theorem historyInv_iff {s : State} : HistoryInv s ↔ ∃ n, IterationsDone n s := by
  constructor
  · intro h
    by_cases hf : s.fsm.toNat ≤ 2
    · exact ⟨0, fun _ => ⟨rfl, h.init hf⟩, fun hgt => absurd hf (Nat.not_le.2 hgt), h.failed⟩
    · obtain ⟨words, w1, hevents, hch⟩ := h.iterations (Nat.not_le.1 hf)
      exact ⟨words.length, fun hle => absurd hle hf, fun _ => ⟨words, w1, rfl, hevents, hch⟩, h.failed⟩
  · rintro ⟨n, h⟩
    refine ⟨fun hf => (h.init hf).2, fun hf => ?_, h.skips⟩
    obtain ⟨words, w1, -, hevents, hch⟩ := h.iterations hf
    exact ⟨words, w1, hevents, hch⟩

/-- The history's part speaks of `fsm`, the pipeline, the configuration and the events only. -/
theorem IterationsDone.same {n : Nat} {s t : State} (h : IterationsDone n s) (e : SameSequencer s t)
    (he : t.events = s.events) : IterationsDone n t := by
  obtain ⟨init, iterations, skips⟩ := h
  obtain ⟨hfsm, hp, hcfg⟩ := e
  refine ⟨by rw [hfsm, hcfg, he]; exact init, fun hf => ?_, by rw [SkipsOnlyUnready, hfsm, hp, hcfg]; exact skips⟩
  obtain ⟨words, w1, hn, hevents, hch⟩ := iterations (hfsm ▸ hf)
  exact ⟨words, w1, hn, by rw [hp, hcfg, he]; exact hevents, by rw [hp]; exact hch⟩

theorem skipsOnlyUnready_of_code {s : State} {c : StateCode} (hf : s.fsm = c)
    (hc : c ≠ Code.notReady ∧ c ≠ Code.pace) : SkipsOnlyUnready s := by
  rintro (h | ⟨h, -⟩)
  · exact absurd (hf.symm.trans h) hc.1
  · exact absurd (hf.symm.trans h) hc.2

/-- Where a readiness test leads, it is what the samples' test says (spec/44_sequencer.md R204, R205). -/
theorem skipsOnlyUnready_of_branch {s : State} {ok : Bool} (hf : s.fsm = branchReady ok)
    (hok : samplesPassed s.cfg s.p = ok) : SkipsOnlyUnready s := by
  cases ok with
  | true => exact skipsOnlyUnready_of_code hf (by decide)
  | false => exact fun _ => hok

section Advance

variable {n : Nat} {s t : State} {c c' : StateCode} (h : IterationsDone n s) (hs : s.fsm = c) (ht : t.fsm = c')
  (hmove : ∀ words w1, HistoryIs words w1 s → ∃ w1', HistoryIs words w1' t)

include h hs ht hmove

/-- A step within the iterations that moves every history of the form on to one with the same whole iterations. -/
theorem IterationsDone.advance (hc : 2 < c.toNat ∧ 2 < c'.toNat) (hskips : SkipsOnlyUnready t) :
    IterationsDone n t := by
  obtain ⟨hc, hc'⟩ := hc
  refine ⟨fun hle => absurd hc' (Nat.not_lt.2 (ht ▸ hle)), fun _ => ?_, hskips⟩
  obtain ⟨words, w1, hn, hhist⟩ := h.iterations (hs ▸ hc)
  obtain ⟨w1', hhist'⟩ := hmove words w1 hhist
  exact ⟨words, w1', hn, hhist'⟩

/-- As `IterationsDone.advance`, to a state code that skips nothing. -/
theorem IterationsDone.advanceTo (hc : 2 < c.toNat ∧ 2 < c'.toNat)
    (hskip : c' ≠ Code.notReady ∧ c' ≠ Code.pace) : IterationsDone n t :=
  h.advance hs ht hmove hc (skipsOnlyUnready_of_code ht hskip)

end Advance

/-! ### What an access adds to the history -/

theorem afterRead_bodies (reg : Reg) (s : State) : (afterRead reg s).events.map BusEvent.body =
    s.events.map BusEvent.body ++ [(.rd, reg, readWord reg s)] := by
  rw [afterRead_events, List.map_append]
  rfl

theorem afterWrite_bodies (reg : Reg) (w : Word) (s : State) : (afterWrite reg w s).events.map BusEvent.body =
    s.events.map BusEvent.body ++ [(.wr, reg, w)] := by
  rw [afterWrite_events, List.map_append]
  rfl

/-- An access adds the same events to the history and to the open iteration. -/
theorem HistoryIs.access {words : List (Word × Word)} {w1 w1' : Word} {s t : State}
    {added : List (AccessKind × Reg × Word)} (h : HistoryIs words w1 s) (hcfg : t.cfg = s.cfg)
    (hevents : t.events.map BusEvent.body = s.events.map BusEvent.body ++ added)
    (hopen : openEvents s.cfg t.p w1' = openEvents s.cfg s.p w1 ++ added)
    (hch : ∀ n, t.p.ch = some n → n = muxSel w1') : HistoryIs words w1' t := by
  refine ⟨?_, hch⟩
  rw [hevents, hcfg, hopen, h.events, List.append_assoc _ (openEvents _ _ _)]

/-! ### What the pipeline shows -/

theorem isWritten_of_writtenExactly {p : Pipeline} {l : List PipeReg} (h : p.writtenExactly l = true)
    (r : PipeReg) : p.isWritten r = l.contains r := by
  have hmem : r ∈ allPipeRegs := by cases r <;> decide
  exact beq_iff_eq.1 (List.all_eq_true.1 h r hmem)

/-- Before `ACTUATE` no pattern is written (spec/10_state.md R30). -/
theorem pat_eq_none_of_decided {st : Strategy} {p : Pipeline} (h : p.writtenExactly (decidedRegs st) = true) :
    p.pat = none := by
  have hpat : p.pat.isSome = (decidedRegs st).contains .pat := isWritten_of_writtenExactly h .pat
  cases st <;> simpa [decidedRegs] using hpat

section OpenEvents

variable {c : Cfg} {p : Pipeline} {w1 : Word}

/-- `p.sa` shows the read of the channel that `POLL_A` reads (spec/44_sequencer.md R204). -/
theorem openEvents_sa {m : Channel} (hsa : p.sa = none) (hsb : p.sb = none) (hpat : p.pat = none)
    (hm : (c.strategy = .bucket ∧ m = muxSel w1) ∨ (c.strategy = .threshold ∧ m = c.velCh)) (w : Word) :
    openEvents c { p with sa := some w } w1 = openEvents c p w1 ++ [(.rd, .adcChannel m, w)] := by
  rcases hm with ⟨hs, rfl⟩ | ⟨hs, rfl⟩ <;> simp [openEvents, hs, hsa, hsb, hpat]

theorem openEvents_sb (hsb : p.sb = none) (hpat : p.pat = none) (w : Word) :
    openEvents c { p with sb := some w } w1 = openEvents c p w1 ++ [(.rd, .adcChannel c.angCh, w)] := by
  simp [openEvents, hsb, hpat]

theorem openEvents_pat (hpat : p.pat = none) (x : Pattern) :
    openEvents c { p with pat := some x } w1 = openEvents c p w1 ++ [(.wr, .gpioData, patternWord x)] := by
  simp [openEvents, hpat]

end OpenEvents

/-! ### `INIT` -/

section Actions

variable {n : Nat} {s t : State} (h : IterationsDone n s)

include h

/-- An action of `INIT` that adds the next of its events (spec/44_sequencer.md R213). -/
theorem IterationsDone.initAction {k : Nat} {e : AccessKind × Reg × Word} (hs : s.fsm.toNat = k)
    (ht : t.fsm.toNat = k + 1) (hk : k < 2) (hcfg : t.cfg = s.cfg)
    (hevents : t.events.map BusEvent.body = s.events.map BusEvent.body ++ [e])
    (he : (initEvents s.cfg).take (k + 1) = (initEvents s.cfg).take k ++ [e])
    (hskips : SkipsOnlyUnready t) : IterationsDone n t := by
  obtain ⟨hn, hinit⟩ := h.init (by omega)
  refine ⟨fun _ => ⟨hn, ?_⟩, fun hgt => by omega, hskips⟩
  rw [hevents, hinit, hs, ht, hcfg, he]

theorem actInitDir_keeps_iterationsDone (hf : s.fsm = Code.initDir) (ht : actInitDir s = .ok t) :
    IterationsDone n t := by
  obtain rfl := actInitDir_eq_ok ht
  exact h.initAction (k := 0) (by rw [hf]; rfl) rfl (by decide) (afterWrite_cfg _ _ _) (afterWrite_bodies _ _ _) rfl
    (skipsOnlyUnready_of_code (c := Code.initArm0) rfl (by decide))

theorem actInitArm0_keeps_iterationsDone (hf : s.fsm = Code.initArm0) (ht : actInitArm0 s = .ok t) :
    IterationsDone n t := by
  obtain rfl := actInitArm0_eq_ok ht
  exact h.initAction (k := 1) (by rw [hf]; rfl) rfl (by decide) (afterWrite_cfg _ _ _) (afterWrite_bodies _ _ _) rfl
    (skipsOnlyUnready_of_code (c := Code.initArm1) rfl (by decide))

omit h in
/-- Where an iteration begins, the history is `INIT` and whole iterations. -/
theorem startIteration_iterationsDone (words : List (Word × Word))
    (hevents : s.events.map BusEvent.body =
      initEvents s.cfg ++ words.flatMap fun x => iterationEvents s.cfg x.1 x.2) :
    IterationsDone words.length (startIteration s) where
  init hle := absurd hle (by rw [startIteration_fsm]; cases s.cfg.strategy <;> decide)
  iterations _ := ⟨words, 0#32, rfl, hevents.trans (List.append_nil _).symm, nofun⟩
  skips := (historyInv_of_empty (s := startIteration s) rfl rfl words hevents).failed

theorem actInitArm1_keeps_iterationsDone (hf : s.fsm = Code.initArm1) (ht : actInitArm1 s = .ok t) :
    IterationsDone n t := by
  obtain ⟨rfl, hinit⟩ := h.init (by rw [hf]; decide)
  obtain rfl := actInitArm1_eq_ok ht
  refine startIteration_iterationsDone [] ?_
  rw [afterWrite_bodies, hinit, hf, afterWrite_cfg]
  rfl

/-! ### The polls -/

omit h in
theorem two_lt_branchReady (ok : Bool) : 2 < (branchReady ok).toNat := by cases ok <;> decide

section Polls

variable (hinv : SeqInv s)

include hinv

theorem actPollSel_keeps_iterationsDone (hf : s.fsm = Code.pollSel) (ht : actPollSel s = .ok t) :
    IterationsDone n t := by
  have hp : s.p = Pipeline.empty := writtenExactly_nil (hinv.stage_at hf)
  obtain ⟨-, rfl⟩ := actPollSel_eq_ok ht
  refine h.advanceTo (c' := Code.pollA) hf rfl (fun words w1 hhist => ?_) (by decide) (by decide)
  refine ⟨readWord .switchInput s, hhist.access rfl (afterRead_bodies .switchInput s) ?_ ?_⟩
  · rw [goto_p, hp]
    rfl
  · rintro _ ⟨⟩
    rfl

theorem actPollA_keeps_iterationsDone (hf : s.fsm = Code.pollA) (ht : actPollA s = .ok t) :
    IterationsDone n t := by
  have hstage := hinv.stage_at hf
  rcases actPollA_eq_ok ht with ⟨hs, m, hm, rfl⟩ | ⟨hs, rfl⟩ <;> rw [hs] at hstage
  · obtain ⟨b, m', hp⟩ := writtenExactly_sel_ch hstage
    refine h.advance hf rfl (fun words w1 hhist => ?_) ⟨by decide, two_lt_branchReady _⟩
      (skipsOnlyUnready_of_branch rfl (by simp [samplesPassed, hs]))
    exact ⟨w1, hhist.access rfl (afterRead_bodies (.adcChannel m) s)
      (openEvents_sa (by rw [hp]; rfl) (by rw [hp]; rfl) (by rw [hp]; rfl) (.inl ⟨hs, hhist.channel m hm⟩) _)
      hhist.channel⟩
  · have hp : s.p = Pipeline.empty := writtenExactly_nil hstage
    refine h.advanceTo (c' := Code.pollB) hf rfl (fun words w1 hhist => ?_) (by decide) (by decide)
    exact ⟨w1, hhist.access rfl (afterRead_bodies (.adcChannel s.cfg.velCh) s)
      (openEvents_sa (by rw [hp]; rfl) (by rw [hp]; rfl) (by rw [hp]; rfl) (.inr ⟨hs, rfl⟩) _) hhist.channel⟩

theorem actPollB_keeps_iterationsDone (hf : s.fsm = Code.pollB) (ht : actPollB s = .ok t) :
    IterationsDone n t := by
  obtain ⟨w, hp⟩ := writtenExactly_sa (hinv.stage_at hf)
  obtain ⟨hs, ⟨wa, hwa, rfl⟩ | ⟨hnone, -⟩⟩ := actPollB_eq_ok ht
  · refine h.advance hf rfl (fun words w1 hhist => ?_) ⟨by decide, two_lt_branchReady _⟩
      (skipsOnlyUnready_of_branch rfl (by simp [samplesPassed, afterPollB, hs, hwa, bothReady]))
    exact ⟨w1, hhist.access rfl (afterRead_bodies (.adcChannel s.cfg.angCh) s)
      (openEvents_sb (by rw [hp]; rfl) (by rw [hp]; rfl) _) hhist.channel⟩
  · simp [hp] at hnone

end Polls

/-! ### `READY` to `ACTUATE` -/

theorem actReady_keeps_iterationsDone (hf : s.fsm = Code.ready) (ht : actReady s = .ok t) :
    IterationsDone n t := by
  cases ht
  exact h.advanceTo (c' := Code.convert) hf rfl (fun _ w1 hhist => ⟨w1, hhist.events, hhist.channel⟩)
    (by decide) (by decide)

theorem actNotReady_keeps_iterationsDone (hf : s.fsm = Code.notReady) (ht : actNotReady s = .ok t) :
    IterationsDone n t := by
  cases ht
  exact h.advance (c' := Code.pace) hf rfl (fun _ w1 hhist => ⟨w1, hhist.events, hhist.channel⟩)
    (by decide) fun _ => h.skips (.inl hf)

/-- The fault of an unwritten `p.sb` is no case of an iteration. -/
theorem actConvert_keeps_iterationsDone (hinv : SeqInv s) (hf : s.fsm = Code.convert) (ht : actConvert s = .ok t) :
    IterationsDone n t := by
  have hpolled : s.p.writtenExactly (polledRegs s.cfg.strategy) = true := hinv.stage_at hf
  obtain ⟨wa, -, ⟨-, rfl⟩ | ⟨hs, ⟨wb, -, rfl⟩ | ⟨hnone, -⟩⟩⟩ := actConvert_eq_ok ht
  · exact h.advanceTo (c' := Code.decide) hf rfl (fun _ w1 hhist => ⟨w1, hhist.events, hhist.channel⟩)
      (by decide) (by decide)
  · exact h.advanceTo (c' := Code.decide) hf rfl (fun _ w1 hhist => ⟨w1, hhist.events, hhist.channel⟩)
      (by decide) (by decide)
  · rw [hs] at hpolled
    obtain ⟨wa', wb', hp⟩ := writtenExactly_polled_threshold hpolled
    simp [hp] at hnone

theorem actDecide_keeps_iterationsDone (hf : s.fsm = Code.decide) (ht : actDecide s = .ok t) :
    IterationsDone n t := by
  rcases actDecide_eq_ok ht with ⟨-, m, -, rfl⟩ | ⟨-, v, a, -, -, rfl⟩ <;>
    exact h.advanceTo (c' := Code.actuate) hf rfl (fun _ w1 hhist => ⟨w1, hhist.events, hhist.channel⟩)
      (by decide) (by decide)

theorem actActuate_keeps_iterationsDone (hv : cfgValid s.cfg = true) (hinv : SeqInv s) (hf : s.fsm = Code.actuate)
    (ht : actActuate s = .ok t) : IterationsDone n t := by
  have hpat : s.p.pat = none := pat_eq_none_of_decided (hinv.stage_at hf)
  obtain ⟨x, hx, -⟩ := actActuate_eq_ok ht
  rw [actActuate_of_valid hv hx, Except.ok.injEq] at ht
  subst ht
  refine h.advance (c' := Code.pace) hf rfl (fun words w1 hhist => ?_) (by decide) ?_
  · refine ⟨w1, hhist.access (afterWrite_cfg _ _ _) (afterWrite_bodies _ _ _) ?_ ?_⟩
    · rw [goto_p, afterWrite_p]
      exact openEvents_pat hpat x
    · rw [goto_p, afterWrite_p]
      exact hhist.channel
  · rintro (hcode | ⟨-, hnone⟩)
    · exact absurd (show Code.pace = Code.notReady from hcode) (by decide)
    · rw [goto_p, afterWrite_p] at hnone
      cases hnone

end Actions

/-! ### `PACE` -/

section Pace

variable {s : State} (hinv : SeqInv s) (hf : s.fsm = Code.pace)

include hinv hf

theorem writtenExactly_at_pace :
    ∃ l, s.p.writtenExactly l = true ∧ (l = polledRegs s.cfg.strategy ∨ l = actuatedRegs s.cfg.strategy) :=
  (Bool.or_eq_true_iff.1 (hinv.stage_at hf)).elim (fun h => ⟨_, h, .inl rfl⟩) fun h => ⟨_, h, .inr rfl⟩

/-- The polls of an iteration are done at `PACE`, whichever way the branch went. -/
theorem polls_done_at_pace {r : PipeReg} (hr : r ∈ [PipeReg.sel, .sa, .sb]) :
    s.p.isWritten r = (polledRegs s.cfg.strategy).contains r := by
  obtain ⟨l, hl, hlist⟩ := writtenExactly_at_pace hinv hf
  rw [isWritten_of_writtenExactly hl]
  rcases hlist with rfl | rfl
  · rfl
  · revert r
    cases s.cfg.strategy <;> decide

/-- A pattern is written where a magnitude was taken (spec/44_sequencer.md R210). -/
theorem pat_isSome_at_pace : s.p.pat.isSome = s.p.ma.isSome := by
  obtain ⟨l, hl, hlist⟩ := writtenExactly_at_pace hinv hf
  have hpat : s.p.pat.isSome = l.contains .pat := isWritten_of_writtenExactly hl .pat
  have hma : s.p.ma.isSome = l.contains .ma := isWritten_of_writtenExactly hl .ma
  rw [hpat, hma]
  rcases hlist with rfl | rfl <;> cases s.cfg.strategy <;> rfl

/-- At `PACE` the pattern of the samples is written exactly when they passed the detector (spec/44_sequencer.md
R213, R218). -/
theorem pat_at_pace (hskips : SkipsOnlyUnready s) {wa : Word} (hsa : s.p.sa = some wa) :
    s.p.pat = if samplesPassed s.cfg s.p then some (samplePattern s.cfg wa (s.p.sb.getD 0#32)) else none := by
  cases hpat : s.p.pat with
  | none => rw [hskips (.inr ⟨hf, hpat⟩), if_neg Bool.false_ne_true]
  | some x =>
    have hma : s.p.ma.isSome := by rw [← pat_isSome_at_pace hinv hf, hpat]; rfl
    obtain ⟨wa', hsa', rfl⟩ := hinv.flow.pat x hpat
    obtain rfl : wa = wa' := Option.some.inj (hsa.symm.trans hsa')
    rw [hinv.passed (.inr (.inr hma)), if_pos rfl]

/-- What the pipeline shows at `PACE` is one of the rows of spec/44_sequencer.md R213. -/
theorem openEvents_at_pace (hskips : SkipsOnlyUnready s) (w1 : Word) :
    ∃ x : Word × Word, openEvents s.cfg s.p w1 = iterationEvents s.cfg x.1 x.2 := by
  have hsel : s.p.sel.isSome = _ := polls_done_at_pace hinv hf (r := .sel) (by decide)
  have hsa : s.p.sa.isSome = _ := polls_done_at_pace hinv hf (r := .sa) (by decide)
  have hsb : s.p.sb.isSome = _ := polls_done_at_pace hinv hf (r := .sb) (by decide)
  cases hs : s.cfg.strategy with
  | bucket =>
    rw [hs] at hsel hsa hsb
    obtain ⟨w, hw⟩ := Option.isSome_iff_exists.1 hsa
    have hnone : s.p.sb = none := by simpa [polledRegs] using hsb
    have hpat := pat_at_pace hinv hf hskips hw
    have hpassed : samplesPassed s.cfg s.p = readyOk s.cfg w := by simp [samplesPassed, hs, hw]
    refine ⟨(w1, w), ?_⟩
    cases hok : readyOk s.cfg w <;>
      simp [openEvents, iterationEvents, samplePattern, polledRegs, hs, hsel, hw, hnone, hpat, hpassed, hok]
  | threshold =>
    rw [hs] at hsel hsa hsb
    obtain ⟨wa, hwa⟩ := Option.isSome_iff_exists.1 hsa
    obtain ⟨wb, hwb⟩ := Option.isSome_iff_exists.1 hsb
    have hpat := pat_at_pace hinv hf hskips hwa
    have hpassed : samplesPassed s.cfg s.p = bothReady s.cfg wa wb := by
      simp [samplesPassed, bothReady, hs, hwa, hwb]
    refine ⟨(wa, wb), ?_⟩
    cases hok : bothReady s.cfg wa wb <;>
      simp [openEvents, iterationEvents, samplePattern, polledRegs, hs, hsel, hwa, hwb, hpat, hpassed, hok]

/-- `PACE` closes the iteration under way. -/
theorem actPace_closes_iteration {n : Nat} {t : State} (h : IterationsDone n s) (ht : actPace s = .ok t) :
    IterationsDone (n + 1) t := by
  cases ht
  obtain ⟨words, w1, rfl, hhist⟩ := h.iterations (by rw [hf]; decide)
  obtain ⟨x, hx⟩ := openEvents_at_pace hinv hf h.skips w1
  have hnext := startIteration_iterationsDone (s := s) (words ++ [x]) (by
    rw [hhist.events, hx, List.flatMap_append, List.flatMap_singleton, List.append_assoc])
  rwa [List.length_append, List.length_singleton] at hnext

end Pace

/-! ### The step -/

/-- An operation that answers without a fault has done its action. -/
theorem act_eq_ok_of_clean {act : State → Except FaultReason State} {s t : State} (h : runAction act s = .next t)
    (hfault : t.fault = none) : act s = .ok t := by
  obtain ⟨-, hok | ⟨r, -, rfl⟩⟩ := runAction_next_cases h
  · exact hok
  · cases hfault

/-- The whole iterations after a move: a `PACE` of `SEQ` completes one. -/
def iterationsAfter (m : AgentMove) (s : State) (n : Nat) : Nat := if m = .seq ∧ s.fsm = Code.pace then n + 1 else n

theorem iterationsAfter_of_ne_pace {s : State} {c : StateCode} (hf : s.fsm = c) (hc : c ≠ Code.pace)
    (m : AgentMove) (n : Nat) : iterationsAfter m s n = n :=
  if_neg fun h => hc (hf.symm.trans h.2)

section Step

variable {n : Nat} {s t : State} (hv : cfgValid s.cfg = true) (hinv : SeqInv s) (h : IterationsDone n s)

include hv hinv h

theorem exec_decodeState_keeps_iterationsDone (hx : exec (decodeState s.fsm) s = .next t) (hfault : t.fault = none) :
    IterationsDone (iterationsAfter .seq s n) t := by
  by_cases hpace : s.fsm = Code.pace
  · rw [iterationsAfter, if_pos ⟨rfl, hpace⟩]
    rw [hpace] at hx
    exact actPace_closes_iteration hinv hpace h (act_eq_ok_of_clean (act := actPace) hx hfault)
  rw [iterationsAfter_of_ne_pace rfl hpace]
  rcases codeAllowed_cases hinv.code with hf | hf | hf | hf | hf | hf | hf | hf | hf | hf | hf | hf <;> rw [hf] at hx
  · exact actInitDir_keeps_iterationsDone h hf (act_eq_ok_of_clean hx hfault)
  · exact actInitArm0_keeps_iterationsDone h hf (act_eq_ok_of_clean hx hfault)
  · exact actInitArm1_keeps_iterationsDone h hf (act_eq_ok_of_clean hx hfault)
  · exact actPollSel_keeps_iterationsDone h hinv hf (act_eq_ok_of_clean hx hfault)
  · exact actPollA_keeps_iterationsDone h hinv hf (act_eq_ok_of_clean hx hfault)
  · exact actPollB_keeps_iterationsDone h hinv hf (act_eq_ok_of_clean hx hfault)
  · exact actReady_keeps_iterationsDone h hf (act_eq_ok_of_clean hx hfault)
  · exact actNotReady_keeps_iterationsDone h hf (act_eq_ok_of_clean hx hfault)
  · exact actConvert_keeps_iterationsDone h hinv hf (act_eq_ok_of_clean hx hfault)
  · exact actDecide_keeps_iterationsDone h hf (act_eq_ok_of_clean hx hfault)
  · exact actActuate_keeps_iterationsDone h hv hinv hf (act_eq_ok_of_clean hx hfault)
  · exact absurd hf hpace

/-- The environment's steps leave the sequencer and the history alone. -/
theorem agentMove_keeps_iterationsDone {m : AgentMove} (ht : agentMove m s = .next t) (hfault : t.fault = none) :
    IterationsDone (iterationsAfter m s n) t := by
  cases m with
  | seq => exact exec_decodeState_keeps_iterationsDone hv hinv h ht hfault
  | complete k v =>
    rw [iterationsAfter, if_neg (by simp)]
    obtain ⟨-, rfl | rfl⟩ := agentMove_complete_cases ht <;> exact h.same ⟨rfl, rfl, rfl⟩ rfl
  | invalidate k =>
    rw [iterationsAfter, if_neg (by simp)]
    obtain ⟨-, rfl | rfl⟩ := agentMove_invalidate_cases ht <;> exact h.same ⟨rfl, rfl, rfl⟩ rfl
  | setSwitch b =>
    rw [iterationsAfter, if_neg (by simp)]
    obtain ⟨-, rfl⟩ := agentMove_setSwitch_eq ht
    exact h.same ⟨rfl, rfl, rfl⟩ rfl

end Step

/-! ### Runs -/

/-- The `n` completed `PACE`s of a run are the whole iterations of its history. -/
theorem RunsTo.iterationsDone {c : Cfg} {n : Nat} {s : State} (h : RunsTo c n s) : IterationsDone n s := by
  induction h with
  | reset d valid =>
    exact ⟨fun _ => ⟨rfl, rfl⟩, fun hgt => absurd hgt (show ¬ 2 < Code.initDir.toNat by decide),
      (historyInv_resetWith c d).failed⟩
  | @move n s t m run moved ih =>
    have hv : cfgValid s.cfg = true := run.runInv.cfg ▸ run.runInv.valid
    have hfault := (run.runInv.move moved).fault
    rw [step_choose hv] at moved
    exact agentMove_keeps_iterationsDone (s := { s with agenda := [], tick := s.tick + 1 }) hv
      (run.runInv.seq.same ⟨rfl, rfl, rfl⟩) (ih.same ⟨rfl, rfl, rfl⟩ rfl) moved hfault

/-- A run is observed where the next iteration begins, with an empty pipeline (spec/44_sequencer.md R211, R212). -/
theorem ObservedAt.runsTo {c : Cfg} {n : Nat} {t : State} (h : ObservedAt c n t) :
    RunsTo c n t ∧ t.p = Pipeline.empty ∧ 2 < t.fsm.toNat := by
  obtain ⟨s, k, rfl, run, hf, hstep⟩ := h
  have hv : cfgValid s.cfg = true := run.runInv.cfg ▸ run.runInv.valid
  have hrun := RunsTo.move .seq run hstep
  rw [if_pos ⟨rfl, hf⟩] at hrun
  have hfault := hrun.runInv.fault
  rw [step_choose hv, agentMove_seq] at hstep
  simp only [hf] at hstep
  cases act_eq_ok_of_clean (act := actPace) hstep hfault
  refine ⟨hrun, rfl, ?_⟩
  rw [startIteration_fsm]
  cases s.cfg.strategy <;> decide

end Sys2Proof.Machine

namespace Sys2Proof.Proofs.AdcReady

open Sys2Proof Sys2Proof.Machine

/-- Settles O60: no agent's step faults, O40 has the sequencer's invariant, and the history's is that of some number
of whole iterations, which the step of every stage keeps or counts on. -/
theorem everyAgentMoveKeepsTheRunInvariant : Obligations.EveryAgentMoveKeepsTheRunInvariant := by
  intro s m hm hv hf hinv hhist
  obtain ⟨n, hn⟩ := historyInv_iff.1 hhist
  have htake : SeqInv (takeMove s) := hinv.same ⟨rfl, rfl, rfl⟩
  obtain ⟨t, ht, hclean⟩ := agentMove_progress (s := takeMove s) hv htake hf m
  have hstep : step s = .next t := (step_of_agent hv hm).trans ht
  have hiterations : IterationsDone _ t :=
    agentMove_keeps_iterationsDone (s := takeMove s) hv htake (hn.same ⟨rfl, rfl, rfl⟩ rfl) ht hclean
  exact ⟨t, hstep, hclean, step_keeps_cfg hstep (by simp [hm]),
    Elements.everyStepKeepsTheSequencerInvariant s t hinv hstep, historyInv_iff.2 ⟨_, hiterations⟩⟩

/-- Settles O46: the whole iterations of a run's history are as many as its `PACE`s, and where a run is observed no
iteration is open. -/
theorem historyIsInitThenIterations : Obligations.HistoryIsInitThenIterations := by
  intro c n s hobserved
  obtain ⟨hrun, hp, hcode⟩ := hobserved.runsTo
  obtain ⟨words, w1, hn, hhist⟩ := hrun.iterationsDone.iterations hcode
  refine ⟨words, hn, ?_⟩
  rw [hhist.events, hp, openEvents_empty, List.append_nil, hrun.runInv.cfg]

/-- Settles O47, by strategy: the decision's pattern is the samples', which passed the detector. -/
theorem actuateWritesTheSamplesPattern : Obligations.ActuateWritesTheSamplesPattern := by
  intro s hinv hv hf hcode
  obtain ⟨x, hx⟩ := exists_decisionPattern hinv hcode
  obtain ⟨wa, hwa, rfl⟩ := decisionPattern_eq_samplePattern hinv.flow hx
  obtain ⟨hma, -⟩ := writtenExactly_actuated (st := s.cfg.strategy) (hinv.stage_at hcode) 0#10
  have hpassed : samplesPassed s.cfg s.p = true := hinv.passed (.inr (.inr hma))
  have hexec := exec_actuate_of_decision hv hf hx
  rw [hcode]
  refine ⟨_, hexec, hf, fun hs => ?_, fun hs => ?_⟩
  · have hready : readyOk s.cfg wa = true := by simpa [samplesPassed, hs, hwa] using hpassed
    exact ⟨wa, hwa, hready, by simp only [samplePattern, hs]⟩
  · simp only [samplesPassed, hs, hwa, Option.any_some, Bool.and_eq_true, Option.any_eq_true] at hpassed
    obtain ⟨hreadyA, wb, hwb, hreadyB⟩ := hpassed
    exact ⟨wa, wb, hwa, hwb, hreadyA, hreadyB, by simp only [samplePattern, hs, hwb, Option.getD_some]⟩

end Sys2Proof.Proofs.AdcReady

/-! Conversion, the stall comparator and the level encoder (spec/42_compare_encode.md): the conversions increase, the
squared comparison is the one with the real stall speed, the two conversions' limits are integer thresholds on the
magnitudes, and the encoder's levels begin at the table's magnitudes. -/

namespace Sys2Proof.Machine

/-! ### The conversions (R150, R151) -/

theorem convVel_nonneg (m : Magnitude) : 0 ≤ convVel m := by
  rw [convVel_eq]
  positivity

theorem convVel_lt_convVel {m n : Magnitude} (h : m.toNat < n.toNat) : convVel m < convVel n := by
  have hcast : (m.toNat : ℚ) < n.toNat := mod_cast h
  rw [convVel_eq, convVel_eq]
  linarith

theorem convAng_lt_convAng {m n : Magnitude} (h : m.toNat < n.toNat) : convAng m < convAng n := by
  have hcast : (m.toNat : ℚ) < n.toNat := mod_cast h
  rw [convAng_eq, convAng_eq]
  linarith

/-! ### The comparator (R153, R154, R156) -/

theorem vStallSq_eq : vStallSq = 32000 / 3 := by
  norm_num [vStallSq, Config.weight, Config.rho, Config.wingArea, Config.clMax]

theorem belowSpeed_of_neg {v : ℚ} (hv : v < 0) (speedSq : ℚ) : belowSpeed speedSq v = true := by
  simp [belowSpeed, hv]

theorem belowSpeed_of_nonneg {v : ℚ} (hv : 0 ≤ v) (speedSq : ℚ) :
    belowSpeed speedSq v = decide (v * v < speedSq) := by
  simp [belowSpeed, hv.not_gt]

/-- The squared comparison is the one with the real speed; a negative velocity is below it too (log entry 15). -/
theorem belowSpeed_iff_lt_sqrt (speedSq v : ℚ) : belowSpeed speedSq v = true ↔ (v : ℝ) < Real.sqrt speedSq := by
  rcases lt_or_ge v 0 with hneg | hnonneg
  · have hlt : (v : ℝ) < Real.sqrt speedSq := (Rat.cast_lt_zero.2 hneg).trans_le (Real.sqrt_nonneg _)
    simp only [belowSpeed_of_neg hneg, hlt]
  · rw [belowSpeed_of_nonneg hnonneg, decide_eq_true_iff, Real.lt_sqrt (Rat.cast_nonneg.2 hnonneg), pow_two]
    norm_cast

theorem stallCmpWith_iff {speedSq angleMax v a : ℚ} :
    stallCmpWith speedSq angleMax v a = true ↔ belowSpeed speedSq v = true ∨ angleMax < a := by
  rw [stallCmpWith, Bool.or_eq_true, decide_eq_true_iff]

theorem stallCmpWith_of_not_below {speedSq v : ℚ} (h : belowSpeed speedSq v = false) (angleMax a : ℚ) :
    stallCmpWith speedSq angleMax v a = decide (angleMax < a) := by
  rw [stallCmpWith, h, Bool.false_or]

theorem stallCmpWith_angle_tie (speedSq angleMax v : ℚ) :
    stallCmpWith speedSq angleMax v angleMax = belowSpeed speedSq v := by
  rw [stallCmpWith, decide_eq_false (lt_irrefl angleMax), Bool.or_false]

/-! ### The thresholds on magnitudes (R155) -/

/-- `1987440 = (32000/3) · (4095/300)²` lies strictly between the squares of 1409 and 1410. -/
theorem mul_self_stall_cases (n : Nat) : n ≤ 1409 ∧ n * n < 1987440 ∨ 1410 ≤ n ∧ 1987440 < n * n := by
  rcases Nat.lt_or_ge n 1410 with hlt | hge
  · have hsq := Nat.mul_self_le_mul_self (Nat.le_of_lt_succ hlt)
    exact .inl ⟨by omega, by omega⟩
  · have hsq := Nat.mul_self_le_mul_self hge
    exact .inr ⟨hge, by omega⟩

theorem convVel_mul_self (m : Magnitude) :
    convVel m * convVel m = vStallSq * ((m.toNat * m.toNat : ℕ) / 1987440) := by
  rw [convVel_eq, vStallSq_eq]
  push_cast
  ring

theorem convVel_sq_lt_vStallSq_iff (m : Magnitude) : convVel m * convVel m < vStallSq ↔ m.toNat ≤ 1409 := by
  have hpos : 0 < vStallSq := by norm_num [vStallSq_eq]
  rw [convVel_mul_self, mul_lt_iff_lt_one_right hpos, div_lt_one (by norm_num)]
  norm_cast
  rcases mul_self_stall_cases m.toNat with ⟨hm, hsq⟩ | ⟨hm, hsq⟩ <;> omega

theorem convVel_sq_ne_vStallSq (m : Magnitude) : convVel m * convVel m ≠ vStallSq := by
  have hne : vStallSq ≠ 0 := by norm_num [vStallSq_eq]
  rw [convVel_mul_self, Ne, mul_eq_left₀ hne, div_eq_one_iff_eq (by norm_num)]
  norm_cast
  rcases mul_self_stall_cases m.toNat with ⟨-, hsq⟩ | ⟨-, hsq⟩ <;> omega

theorem belowSpeed_convVel (m : Magnitude) : belowSpeed vStallSq (convVel m) = decide (m.toNat ≤ 1409) := by
  rw [belowSpeed_of_nonneg (convVel_nonneg m), decide_eq_decide]
  exact convVel_sq_lt_vStallSq_iff m

/-- The angle's distance from 15 degrees, of which `ma = 3071.25` would be the zero. -/
theorem convAng_sub_limit (m : Magnitude) : convAng m - 15 = ((4 * m.toNat : ℕ) - (12285 : ℕ)) / 273 := by
  rw [convAng_eq]
  push_cast
  ring

theorem limit_lt_convAng_iff (m : Magnitude) : 15 < convAng m ↔ 3072 ≤ m.toNat := by
  rw [← sub_pos, convAng_sub_limit, div_pos_iff_of_pos_right (by norm_num), sub_pos, Nat.cast_lt]
  omega

theorem convAng_ne_limit (m : Magnitude) : convAng m ≠ 15 := by
  rw [← sub_ne_zero, convAng_sub_limit]
  refine div_ne_zero (sub_ne_zero.2 (Nat.cast_injective.ne ?_)) (by norm_num)
  omega

/-! ### The encoder (R160 to R163) -/

theorem clampLevel_val (x : Nat) : (clampLevel x).val = min x 10 := by
  simp only [clampLevel, clamp, Nat.max_zero, Config.maxLevel]

theorem levelEnc_mono {m n : Magnitude} (h : m.toNat ≤ n.toNat) : (levelEnc m).val ≤ (levelEnc n).val := by
  rw [levelEnc_val, levelEnc_val]
  exact Nat.div_le_div_right (Nat.mul_le_mul_left 10 h)

theorem level_le_levelEnc_iff (m : Magnitude) (k : Nat) :
    k ≤ (levelEnc m).val ↔ (4095 * k + 9) / 10 ≤ m.toNat := by
  rw [levelEnc_val, Nat.le_div_iff_mul_le (by decide)]
  omega

end Sys2Proof.Machine

namespace Sys2Proof.Proofs.CompareEncode

open Sys2Proof Sys2Proof.Machine

/-- Settles O53: the velocity's term compares with the root of `V_STALL_SQ`. -/
theorem stallCmpComparesWithTheStallSpeed : Obligations.StallCmpComparesWithTheStallSpeed := by
  refine ⟨vStallSq_eq, fun v a => ?_⟩
  rw [stallCmp, stallCmpWith_iff, belowSpeed_iff_lt_sqrt, vStallSq_eq, Config.alphaMax]
  norm_num

/-- Settles O54, term by term. -/
theorem integerThresholdsReplaceTheComparator : Obligations.IntegerThresholdsReplaceTheComparator := by
  intro mv ma
  rw [stallCmp, stallCmpWith, belowSpeed_convVel, Config.alphaMax, stallThresholds]
  congr 1
  exact decide_eq_decide.2 (limit_lt_convAng_iff ma)

/-- Settles O55: at the defaults both ties would need a magnitude that is no integer; elsewhere both comparisons are
strict. -/
theorem tiesNeverDecideAndNeverStall : Obligations.TiesNeverDecideAndNeverStall := by
  refine ⟨fun m => ⟨convVel_sq_ne_vStallSq m, fun htie => ?_, convAng_ne_limit m⟩, ?_, stallCmpWith_angle_tie⟩
  · have hnonneg : (0 : ℝ) ≤ vStallSq := by norm_num [vStallSq_eq]
    have hsq : (convVel m : ℝ) * convVel m = vStallSq := by rw [htie, Real.mul_self_sqrt hnonneg]
    exact convVel_sq_ne_vStallSq m (mod_cast hsq)
  · intro speedSq angleMax v a hv htie
    have hnot : belowSpeed speedSq v = false := by
      rw [belowSpeed_of_nonneg hv, decide_eq_false htie.not_lt]
    exact ⟨hnot, (stallCmpWith_angle_tie ..).trans hnot, stallCmpWith_of_not_below hnot angleMax a⟩

/-- Settles O56: a magnitude has level `k` when it has reached the boundary of `k` and not the one of `k + 1`; no
magnitude has level 11. -/
theorem levelBoundariesAreTheTables : Obligations.LevelBoundariesAreTheTables := by
  refine ⟨fun m k => ?_, rfl⟩
  have hat := level_le_levelEnc_iff m k
  have hnext := level_le_levelEnc_iff m (k + 1)
  have hmax : (levelEnc m).val ≤ 10 := Nat.le_of_lt_succ (levelEnc m).isLt
  rw [Fin.ext_iff]
  omega

/-- Settles O52: each formula at the two ends, and each slope positive. -/
theorem conversionsAreAffineAndIncreasing : Obligations.ConversionsAreAffineAndIncreasing := by
  refine ⟨fun m => ⟨convVel_eq m, convAng_eq m⟩, ?_, ?_, ?_, ?_,
    fun m n h => ⟨convVel_lt_convVel h, convAng_lt_convAng h⟩⟩
  · norm_num [convVel_eq]
  · norm_num [convVel_eq]
  · norm_num [convAng_eq]
  · norm_num [convAng_eq]

/-- Settles O57: the encoder's count is monotone, and the clamp keeps the smaller of it and 10. -/
theorem levelIsClampedAndMonotone : Obligations.LevelIsClampedAndMonotone :=
  ⟨fun _ _ => levelEnc_mono, fun m => ⟨levelEnc_val m, Nat.le_of_lt_succ (levelEnc m).isLt⟩,
    fun x hx => (clampLevel_val x).trans (Nat.min_eq_right hx), rfl, rfl, rfl⟩

end Sys2Proof.Proofs.CompareEncode

/-! The indicator patterns and their driver (spec/43_gpio_driver.md): which bits the bar patterns light, what the pins
show, and that a run sets the direction register once, at `INIT_DIR`. -/

namespace Sys2Proof.Machine

/-! ### The patterns (R180, R181) -/

theorem barPattern_toNat (k : Level) : (barPattern k).toNat = 2 ^ k.val - 1 := by
  have hle : 2 ^ k.val ≤ 2 ^ 10 := Nat.pow_le_pow_right (by decide) (Nat.le_of_lt_succ k.isLt)
  rw [barPattern, Nat.one_shiftLeft, BitVec.toNat_ofNat, Nat.mod_eq_of_lt (by omega)]

theorem barPattern_getLsbD (k : Level) (i : Nat) : (barPattern k).getLsbD i = decide (i < k.val) := by
  rw [← BitVec.testBit_toNat, barPattern_toNat, Nat.testBit_two_pow_sub_one]

/-- `ALL_ON` lights every indicator (R181). -/
theorem allOn_getLsbD : ∀ i : Fin 10, (0x3FF#10 : Pattern).getLsbD i.val = true := by decide

/-! ### What an observer sees of a pin (R185) -/

theorem lit_of_driven {s : State} {i : Fin 10} (h : s.gpioDir.getLsbD i.val = true) :
    lit s i = s.gpioData.getLsbD i.val := by
  rw [lit, ledOut_of_driven h, Option.getD_some]

theorem lit_of_not_driven {s : State} {i : Fin 10} (h : s.gpioDir.getLsbD i.val = false) :
    lit s i = (Config.undrivenPins s.tick).getLsbD i.val := by
  rw [lit, ledOut_of_not_driven h, Option.getD_none]

/-! ### The direction register of a run (R186) -/

theorem nextMove_choose (m : AgentMove) (s : State) : nextMove (choose m s) = .agent m := rfl

theorem nextMove_choose_ne_reset (m : AgentMove) (s : State) (c : Cfg) (d : ResetDraws) :
    nextMove (choose m s) ≠ .reset c d := nofun

section Runs

variable {c : Cfg} {n : Nat} {s t : State} {m : AgentMove}

/-- Of the agents only `SEQ` accesses the bus, and it writes the direction at `INIT_DIR` alone (spec/30_encoding.md
R78). -/
theorem nextWrites_gpioDir_choose (h : nextWrites .gpioDir (choose m s)) : m = .seq ∧ s.fsm = Code.initDir := by
  simp only [nextWrites, nextMove_choose, Move.agent.injEq, writerCode, choose_fsm, Option.some.injEq,
    reduceCtorEq, false_and, exists_false, or_false] at h
  obtain ⟨hm, hcode⟩ := h
  exact ⟨hm, hcode.symm⟩

/-- `INIT_DIR`'s own write is the first event of a run. -/
theorem RunsTo.events_eq_nil_iff (run : RunsTo c n s) : s.events = [] ↔ s.fsm = Code.initDir := by
  rw [← List.map_eq_nil_iff (f := BusEvent.body)]
  by_cases hcode : s.fsm.toNat ≤ 2
  · obtain ⟨-, hevents⟩ := run.iterationsDone.init hcode
    rw [hevents, List.take_eq_nil_iff, BitVec.toNat_eq]
    exact or_iff_left (by simp [initEvents])
  · obtain ⟨words, w1, -, hhist⟩ := run.iterationsDone.iterations (Nat.not_le.1 hcode)
    have hne : s.fsm ≠ Code.initDir := fun hf => hcode (hf ▸ by decide)
    simp [hhist.events, initEvents, hne]

/-- No run comes back to `INIT_DIR`: its history would be empty again. -/
theorem RunsTo.initDir_of_move (run : RunsTo c n s) (moved : step (choose m s) = .next t)
    (hf : t.fsm = Code.initDir) : s.fsm = Code.initDir := by
  obtain ⟨added, hevents, -, -⟩ := step_historyGrows moved (nextMove_choose_ne_reset m s)
  rw [(run.move m moved).events_eq_nil_iff.2 hf] at hevents
  obtain ⟨hnil, -⟩ := List.append_eq_nil_iff.1 hevents.symm
  exact run.events_eq_nil_iff.1 hnil

/-- The step of `INIT_DIR` in a run writes `DIR_MASK` (spec/44_sequencer.md R200). -/
theorem RunsTo.move_initDir (run : RunsTo c n s) (hf : s.fsm = Code.initDir)
    (moved : step (choose .seq s) = .next t) : t.fsm = Code.initArm0 ∧ t.gpioDir = 0x3FF#10 := by
  have hv : cfgValid s.cfg = true := run.runInv.cfg ▸ run.runInv.valid
  have hclean := (run.runInv.move moved).fault
  rw [step_choose hv, agentMove_seq] at moved
  simp only [hf] at moved
  obtain rfl := actInitDir_eq_ok (act_eq_ok_of_clean (act := actInitDir) moved hclean)
  exact ⟨rfl, rfl⟩

/-- Every other step of a run keeps the direction, and whether `INIT_DIR` is still to come. -/
theorem RunsTo.move_of_not_initDir (run : RunsTo c n s) (hinit : ¬ (m = .seq ∧ s.fsm = Code.initDir))
    (moved : step (choose m s) = .next t) :
    t.gpioDir = s.gpioDir ∧ (t.fsm = Code.initDir ↔ s.fsm = Code.initDir) := by
  have hreset := nextMove_choose_ne_reset m s
  refine ⟨?_, run.initDir_of_move moved, fun hf => ?_⟩
  · by_contra hne
    exact hinit (nextWrites_gpioDir_choose (step_gpioDir_writer moved hreset hne))
  · have hseq : nextMove (choose m s) ≠ .agent .seq := fun hm => hinit ⟨Move.agent.inj hm, hf⟩
    exact (step_same_of_not_seq moved hseq hreset).fsm.trans hf

theorem RunsTo.gpioDir_eq (run : RunsTo c n s) :
    s.gpioDir = if s.fsm = Code.initDir then 0x000#10 else 0x3FF#10 := by
  induction run with
  | reset d valid => rfl
  | @move n s t m run moved ih =>
    by_cases hinit : m = .seq ∧ s.fsm = Code.initDir
    · obtain ⟨rfl, hf⟩ := hinit
      obtain ⟨hcode, hdir⟩ := run.move_initDir hf moved
      rw [hdir, hcode, if_neg (by decide)]
    · obtain ⟨hdir, hcode⟩ := run.move_of_not_initDir hinit moved
      rw [hdir, ih]
      simp only [hcode]

end Runs

end Sys2Proof.Machine

namespace Sys2Proof.Proofs.GpioDriver

open Sys2Proof Sys2Proof.Machine

/-- Settles O37: of the steps that are no reset only a write of `GPIO_DATA` changes the latch. -/
theorem latchKeepsItsValueUnlessWritten : Obligations.LatchKeepsItsValueUnlessWritten := by
  intro s t hstep hne
  by_cases hreset : ∃ c d, nextMove s = .reset c d
  · exact .inr (.inr (.inr hreset))
  · push Not at hreset
    rcases step_gpioData_writer hstep hreset hne with ⟨hseq, hcode⟩ | htransfer | hrequest
    · exact .inl ⟨hseq, (Option.some.inj hcode).symm⟩
    · exact .inr (.inl htransfer)
    · exact .inr (.inr (.inl hrequest))

/-- Settles O48: the direction of a run's states, by induction on the run, gives what drives the pins. -/
theorem directionIsFixedAfterInitDir : Obligations.DirectionIsFixedAfterInitDir := by
  intro c n s run
  refine ⟨fun hf => ?_, fun hf => ?_⟩
  · have hdir : s.gpioDir = 0x000#10 := run.gpioDir_eq.trans (if_pos hf)
    exact ⟨hdir, fun i => ledOut_of_not_driven (by rw [hdir, BitVec.getLsbD_zero])⟩
  · have hdir : s.gpioDir = 0x3FF#10 := run.gpioDir_eq.trans (if_neg hf)
    exact ⟨hdir, fun i => ledOut_of_driven (by rw [hdir, allOn_getLsbD])⟩

/-- Settles O58: `BarPattern(k)` is `2^k - 1`, whose set bits are those below `k`. -/
theorem patternsLightTheirIndicators : Obligations.PatternsLightTheirIndicators :=
  ⟨barPattern_getLsbD, barPattern_toNat, rfl, rfl⟩

/-- Settles O59: the output enables are the direction register, by whose bit a pin is driven. -/
theorem driverShowsTheLatchWhereEnabled : Obligations.DriverShowsTheLatchWhereEnabled :=
  fun _ _ => ⟨rfl, fun h => ⟨ledOut_of_driven h, lit_of_driven h⟩,
    fun h => ⟨ledOut_of_not_driven h, lit_of_not_driven h⟩⟩

end Sys2Proof.Proofs.GpioDriver

/-! The transition table of the sequencer (spec/44_sequencer.md R217): a strategy has a row for each state code it
uses, every action answers in the state of its row, and the codes without a row record `BAD_STATE` (R215). -/

namespace Sys2Proof.Machine

/-! ### The codes without a row -/

/-- The table has a row for exactly the codes that the strategy uses (spec/44_sequencer.md R216, R217). -/
theorem nextCode_eq_none_iff {st : Strategy} {ok : Bool} {c : StateCode} :
    nextCode st ok c = none ↔ codeAllowed st c = false := by
  revert c
  cases st <;> cases ok <;> decide

theorem not_codeAllowed_cases {st : Strategy} {c : StateCode} (h : codeAllowed st c = false) :
    (c = Code.pollSel ∧ st = .threshold) ∨ (c = Code.pollB ∧ st = .bucket) ∨ 0xC ≤ c.toNat := by
  revert c
  cases st <;> decide

/-- An action that raises and answers has only recorded its fault (spec/60_exceptions.md R232, R235). -/
theorem runAction_next_of_error {act : State → Except FaultReason State} {s t : State} {r : FaultReason}
    (hraise : act s = .error r) (h : runAction act s = .next t) : t = { s with fault := some r } := by
  obtain ⟨hf, -⟩ := runAction_next_cases h
  rw [runAction_of_error hf hraise, Host.Outcome.next.injEq] at h
  exact h.symm

/-- A state code that the strategy does not use records `BAD_STATE` (spec/44_sequencer.md R215). -/
theorem exec_decodeState_of_not_codeAllowed {s t : State} (hcode : codeAllowed s.cfg.strategy s.fsm = false)
    (h : exec (decodeState s.fsm) s = .next t) : t = { s with fault := some (.badState s.fsm) } := by
  rcases not_codeAllowed_cases hcode with ⟨hf, hs⟩ | ⟨hf, hs⟩ | hf
  · rw [hf] at h
    exact runAction_next_of_error (actPollSel_threshold hs) h
  · rw [hf] at h
    exact runAction_next_of_error (actPollB_bucket hs) h
  · rw [decodeState_of_reserved hf] at h
    exact runAction_next_of_error (act := actReservedState) rfl h

/-! ### The rows -/

section Rows

variable {s t : State}

theorem actPollSel_follows_table (ht : actPollSel s = .ok t) (ok : Bool) :
    nextCode s.cfg.strategy ok Code.pollSel = some t.fsm := by
  obtain ⟨hs, rfl⟩ := actPollSel_eq_ok ht
  rw [hs]
  rfl

/-- Under `BUCKET` the word that `POLL_A` reads decides; under `THRESHOLD` it leads to `POLL_B`. -/
theorem actPollA_follows_table (ht : actPollA s = .ok t) :
    nextCode s.cfg.strategy (samplesPassed t.cfg t.p) Code.pollA = some t.fsm := by
  rcases actPollA_eq_ok ht with ⟨hs, n, -, rfl⟩ | ⟨hs, rfl⟩
  · have hok : samplesPassed s.cfg { s.p with sa := some (readWord (.adcChannel n) s) } =
        readyOk s.cfg (readWord (.adcChannel n) s) := by simp [samplesPassed, hs]
    rw [hs, goto_fsm, ← hok]
    rfl
  · rw [hs]
    rfl

/-- Both words of the iteration decide (spec/44_sequencer.md R205). -/
theorem actPollB_follows_table (ht : actPollB s = .ok t) (hfault : t.fault = none) :
    nextCode s.cfg.strategy (samplesPassed t.cfg t.p) Code.pollB = some t.fsm := by
  obtain ⟨hs, ⟨wa, hwa, rfl⟩ | ⟨-, rfl⟩⟩ := actPollB_eq_ok ht
  · have hok : samplesPassed s.cfg (afterPollB s).p =
        bothReady s.cfg wa (readWord (.adcChannel s.cfg.angCh) s) := by
      simp [samplesPassed, afterPollB, bothReady, hs, hwa]
    rw [hs, goto_fsm, ← hok]
    rfl
  · cases hfault

theorem actConvert_fsm (ht : actConvert s = .ok t) (hfault : t.fault = none) : t.fsm = Code.decide := by
  obtain ⟨wa, -, ⟨-, rfl⟩ | ⟨-, ⟨wb, -, rfl⟩ | ⟨-, rfl⟩⟩⟩ := actConvert_eq_ok ht
  · rfl
  · rfl
  · cases hfault

theorem actDecide_fsm (ht : actDecide s = .ok t) : t.fsm = Code.actuate := by
  rcases actDecide_eq_ok ht with ⟨-, m, -, rfl⟩ | ⟨-, v, a, -, -, rfl⟩ <;> rfl

theorem actActuate_fsm (ht : actActuate s = .ok t) (hfault : t.fault = none) : t.fsm = Code.pace := by
  obtain ⟨x, -, rfl | ⟨r, -, rfl⟩⟩ := actActuate_eq_ok ht
  · rfl
  · cases hfault

/-- An action that answers without a fault leads where its row says. -/
theorem exec_decodeState_follows_table (h : exec (decodeState s.fsm) s = .next t) (hfault : t.fault = none) :
    nextCode s.cfg.strategy (samplesPassed t.cfg t.p) s.fsm = some t.fsm := by
  have hallowed : codeAllowed s.cfg.strategy s.fsm = true := by
    by_contra hnot
    cases exec_decodeState_of_not_codeAllowed (Bool.eq_false_of_not_eq_true hnot) h
    cases hfault
  rcases codeAllowed_cases hallowed with hf | hf | hf | hf | hf | hf | hf | hf | hf | hf | hf | hf <;>
    rw [hf] at h ⊢
  · obtain rfl := actInitDir_eq_ok (act_eq_ok_of_clean h hfault)
    rfl
  · obtain rfl := actInitArm0_eq_ok (act_eq_ok_of_clean h hfault)
    rfl
  · obtain rfl := actInitArm1_eq_ok (act_eq_ok_of_clean h hfault)
    rw [startIteration_fsm, afterWrite_cfg]
    rfl
  · exact actPollSel_follows_table (act_eq_ok_of_clean h hfault) _
  · exact actPollA_follows_table (act_eq_ok_of_clean h hfault)
  · exact actPollB_follows_table (act_eq_ok_of_clean h hfault) hfault
  · cases act_eq_ok_of_clean (act := actReady) h hfault
    rfl
  · cases act_eq_ok_of_clean (act := actNotReady) h hfault
    rfl
  · rw [actConvert_fsm (act_eq_ok_of_clean h hfault) hfault]
    rfl
  · rw [actDecide_fsm (act_eq_ok_of_clean h hfault)]
    rfl
  · rw [actActuate_fsm (act_eq_ok_of_clean h hfault) hfault]
    rfl
  · cases act_eq_ok_of_clean (act := actPace) h hfault
    rfl

end Rows

end Sys2Proof.Machine

namespace Sys2Proof.Proofs.Sequencer

open Sys2Proof Sys2Proof.Machine

/-- Settles O30: the codes with a row by their actions, and the others, which the strategy does not use, by the
fault they record. -/
theorem actionsFollowTheTransitionTable : Obligations.ActionsFollowTheTransitionTable :=
  fun _ _ _ h => ⟨exec_decodeState_follows_table h,
    fun _ hnone => exec_decodeState_of_not_codeAllowed (nextCode_eq_none_iff.1 hnone) h⟩

/-- Settles O25: the three actions make no access, so each always answers. -/
theorem branchStatesAndPaceOnlyMoveOn : Obligations.BranchStatesAndPaceOnlyMoveOn := by
  intro s hf
  refine ⟨runAction_of_ok (act := actReady) hf rfl, runAction_of_ok (act := actNotReady) hf rfl, ?_⟩
  rw [exec_pace, runAction_of_ok (act := actPace) hf rfl, startIteration, firstPoll_eq]
  rfl

end Sys2Proof.Proofs.Sequencer

/-! A recorded fault stops everything but a reset (spec/60_exceptions.md R232): every operation, every agent's move
and every raw request is one action, and `runAction` stops where a fault is recorded. -/

namespace Sys2Proof.Machine

/-- Every operation is one action. -/
theorem exec_exists_action (i : Instr) : ∃ act, ∀ s, exec i s = runAction act s := by
  cases i with
  | rdAdc n => exact ⟨_, exec_rdAdc n⟩
  | wrAdc0 w => exact ⟨_, exec_wrAdc0 w⟩
  | wrAdc1 w => exact ⟨_, exec_wrAdc1 w⟩
  | rdGpioData => exact ⟨_, exec_rdGpioData⟩
  | wrGpioData w => exact ⟨_, exec_wrGpioData w⟩
  | rdGpioDir => exact ⟨_, exec_rdGpioDir⟩
  | wrGpioDir w => exact ⟨_, exec_wrGpioDir w⟩
  | rdSwitch => exact ⟨_, exec_rdSwitch⟩
  | wrSwitch w => exact ⟨_, exec_wrSwitch w⟩
  | unmapped d w => exact ⟨_, exec_unmapped d w⟩
  | initDir => exact ⟨_, exec_initDir⟩
  | initArm0 => exact ⟨_, exec_initArm0⟩
  | initArm1 => exact ⟨_, exec_initArm1⟩
  | pollSel => exact ⟨_, exec_pollSel⟩
  | pollA => exact ⟨_, exec_pollA⟩
  | pollB => exact ⟨_, exec_pollB⟩
  | ready => exact ⟨_, exec_ready⟩
  | notReady => exact ⟨_, exec_notReady⟩
  | convertState => exact ⟨_, exec_convertState⟩
  | decideState => exact ⟨_, exec_decideState⟩
  | actuate => exact ⟨_, exec_actuate⟩
  | pace => exact ⟨_, exec_pace⟩
  | reservedState c => exact ⟨_, exec_reservedState c⟩

/-- Every agent's move is one action. `SEQ`'s depends on the state code it finds. -/
theorem agentMove_exists_action (m : AgentMove) (s : State) : ∃ act, agentMove m s = runAction act s := by
  cases m with
  | seq =>
    obtain ⟨act, hact⟩ := exec_exists_action (decodeState s.fsm)
    exact ⟨act, hact s⟩
  | complete n v => exact ⟨_, agentMove_complete n v s⟩
  | invalidate n => exact ⟨_, agentMove_invalidate n s⟩
  | setSwitch b => exact ⟨_, agentMove_setSwitch b s⟩

/-- Every move but a reset is one action under the state's configuration. -/
theorem makeMove_exists_action {m : Move} (hreset : ∀ c d, m ≠ .reset c d) (s : State) :
    ∃ act, makeMove m s = guardCfg s.cfg (runAction act s) := by
  cases m with
  | agent a =>
    obtain ⟨act, hact⟩ := agentMove_exists_action a s
    exact ⟨act, congrArg (guardCfg s.cfg) hact⟩
  | transfer d w =>
    obtain ⟨act, hact⟩ := exec_exists_action (decodeTransfer d w)
    exact ⟨act, congrArg (guardCfg s.cfg) (hact s)⟩
  | request r => exact ⟨_, rfl⟩
  | reset c d => exact absurd rfl (hreset c d)

section Stopped

variable {s t : State} {r : FaultReason}

theorem exec_of_fault (hf : s.fault = some r) (i : Instr) : exec i s = .fault (.stopped r) := by
  obtain ⟨act, hact⟩ := exec_exists_action i
  rw [hact, runAction_of_fault hf]

theorem step_of_fault (hf : s.fault = some r) (hv : cfgValid s.cfg = true)
    (hreset : ∀ c d, nextMove s ≠ .reset c d) : step s = .fault (.stopped r) := by
  obtain ⟨act, hact⟩ := makeMove_exists_action hreset (takeMove s)
  have hf' : (takeMove s).fault = some r := hf
  rw [step, hact, runAction_of_fault hf', guardCfg, takeMove_cfg, if_pos hv]

/-- A step that is no reset answers only under a valid configuration (spec/00_scope.md R8). -/
theorem cfgValid_of_step_next (h : step s = .next t) (hreset : ∀ c d, nextMove s ≠ .reset c d) :
    cfgValid s.cfg = true := by
  obtain ⟨act, hact⟩ := makeMove_exists_action hreset (takeMove s)
  rw [step, hact, guardCfg_eq_next_iff] at h
  exact h.1

end Stopped

end Sys2Proof.Machine

namespace Sys2Proof.Proofs.Exceptions

open Sys2Proof Sys2Proof.Machine

/-- Settles O33: operations and moves are actions, which a recorded fault stops; so a step that answers is a reset. -/
theorem recordedFaultIsSticky : Obligations.RecordedFaultIsSticky := by
  refine ⟨fun i s r hf => exec_of_fault hf i, fun s r => step_of_fault, fun s t r hf hstep => ?_⟩
  by_contra hnone
  push Not at hnone
  have hstopped := step_of_fault hf (cfgValid_of_step_next hstep hnone) hnone
  cases hstep.symm.trans hstopped

end Sys2Proof.Proofs.Exceptions
